-- ==== Sys2Proof/Word.lean ====
section
/-! DEFINITION. The plain data types of the block: register words, bytes, internal-form codes, sparse maps. -/
namespace Sys2Proof

/-- A register (R13): 64 bits. -/
abbrev Word := BitVec 64

/-- One byte of memory or of a message. -/
abbrev Byte := BitVec 8

/-- A code of KX, the internal form of the rule fabric (R84): sign [33], exponent [32:23], fraction [22:0]. -/
abbrev KX := BitVec 34

/-- A sparse map from keys to values in canonical form: keys strictly rising, no entry equal to the default. -/
abbrev FMap (V : Type) := List (Nat × V)

end Sys2Proof
end

