-- ==== Sys2Proof/Syntax.lean ====
section
/-! DEFINITION. The commands of the block: one constructor per row of spec/opcode_table.json, with the operands that the
row's event carries. The table gives no operands and no bits, so the operands are the model's (assumption log 10). -/
namespace Sys2Proof

/-- The four queues (R16, R418): 0 GQ, 1 AQ, 2 UQ, 3 SQ. -/
inductive Queue where
  | gq | aq | uq | sq
  deriving DecidableEq, Repr

/-- The two register ports (R386). -/
inductive RegPort where
  | hcp | svp
  deriving DecidableEq, Repr

/-- The vote that a member casts (R74). -/
inductive Vote where
  | yes | hold | no
  deriving DecidableEq, Repr

/-- What the coordinator decides (R75, R76): COMMIT with its flip beat; HELD or ABORT. -/
inductive Decision where
  | commit | held | abortNo | abortPeerLost
  deriving DecidableEq, Repr

/-- The background classes of the grey window (R35, R36). -/
inductive GreyClass where
  | scrub | link | wear | telemetry
  deriving DecidableEq, Repr

/-- The fields of COMMIT_GROUP and SNAP_CFG that an instance advertises, live or staged (R71, R370). -/
structure Advert where
  groupId    : Nat
  coord      : Nat
  sizeM1     : Nat
  feed       : Nat
  partnerEn  : Bool
  partner    : Nat
  mirrorGib  : Nat
  deriving DecidableEq, Repr

/-- A group barrier's arrive flag for one queue (R243): the flag and its BARRIER_ID. -/
structure Arrive where
  flag : Bool
  id   : Nat
  deriving DecidableEq, Repr

/-- A beat-sync message (R26, R27, R29, R66, R71, R243, R370). -/
structure BeatMsg where
  src       : Nat            -- INST_ID of the sender
  beat      : Nat            -- the sender's count at the boundary it was sent at
  master    : Option Nat     -- INST_ID that the sender takes as master; none before it has heard of one (R27, R29)
  lenK      : Nat            -- staged LEN_K of the sender
  lenForce  : Nat            -- LEN_K in force at the sender
  newLen    : Option (Nat × Nat)   -- an announced length and its first beat (R26)
  live      : Advert
  staged    : Advert
  ready     : Bool           -- R66
  arrive    : List Arrive    -- R243, one for each queue
  heard     : Bool           -- the sender has heard of a master since its reset (R29)
  deriving DecidableEq, Repr

/-- What a peer frame says (R405): header, payload and trailer. -/
structure Frame where
  cls       : Nat
  src       : Nat
  seq       : Nat
  dest      : List Nat       -- INST_IDs of the DEST mask
  ackClass  : Nat
  ackSeq    : Nat
  swap      : Nat            -- lane named for a swap, 0xFF = none
  payload   : List Byte
  nak       : Option (Nat × Nat)   -- NAK_CLASS and NAK_SEQ
  refuse    : Option (Nat × Nat)   -- REFUSE_SEQ and REFUSE_CODE
  deriving DecidableEq, Repr

/-- A tile's position: descriptor and tile number. -/
structure TileId where
  desc : Nat
  tile : Nat
  deriving DecidableEq, Repr

/-- What a snapshot records of a descriptor (R371): the FIRST, LAST and TVD_BUILD of its part, words 0 to 7 as they stood in Ivory, its
statistics page, its INCOMPLETE flag. -/
structure SnapRecord where
  desc       : Nat
  first      : Nat
  last       : Nat
  build      : BitVec 64
  words      : List Byte
  stats      : List Byte
  incomplete : Bool
  deriving DecidableEq, Repr

/-- The digest table of one descriptor of a snapshot, with its record: a digest for each tile, none for a tile that was not
copied (R360, R371, R374). -/
structure DigestTable where
  record  : SnapRecord
  digests : List (Option (BitVec 32))
  deriving DecidableEq, Repr

/-- A physical flash address (R338). -/
structure FlashAddr where
  ch    : Nat
  lun   : Nat
  plane : Nat
  block : Nat
  page  : Nat
  deriving DecidableEq, Repr

/-- The 32-byte spare record of a programmed page (R338). -/
structure Spare where
  unit   : Nat
  wseq   : Nat
  crc    : BitVec 32
  digest : BitVec 32
  kind   : Nat
  deriving DecidableEq, Repr

/-- What the tiles in flight were when a fault hit: how many of the oldest issued tiles of each queue (R136). -/
structure InFlight where
  gq : Nat
  aq : Nat
  uq : Nat
  sq : Nat
  deriving DecidableEq, Repr

/-- The straps (R389, R390). -/
structure Straps where
  instId   : Nat
  feedId   : Nat
  imageSrc : Nat
  deriving DecidableEq, Repr, Inhabited

/-- Tile data of one snapshot tile: bytes in the order of R360. -/
structure SnapTile where
  id     : TileId
  bytes  : List Byte
  digest : BitVec 32
  deriving DecidableEq, Repr

/-- An entry of the block table (R327, R339, R341): the block by bits [31:10] of its pages' addresses, its erase count, its reads since
erase, its state (0 free, 1 open, 2 full, 3 factory-bad, 4 grown-bad), the next page to program, its class. -/
structure BlockEntry where
  key    : Nat
  erases : Nat
  reads  : Nat
  state  : Nat
  next   : Nat
  cls    : Nat
  deriving DecidableEq, Repr

/-- A slot of a table section as a rebuild reads it (R342): the section, which of its two slots, the checkpoint number of its tag, whether its
CRC-32C verifies, and what it holds: mapped units (unit, physical page, PAGE_DIGEST there), entries of the block table. -/
structure TableSlot where
  sect     : Nat
  slot     : Nat
  num      : Nat
  verifies : Bool
  units    : List (Nat × FlashAddr × BitVec 32)
  blocks   : List BlockEntry
  deriving DecidableEq, Repr

/-- What the reads of a rebuild or of a format return (R341, R342, R385): the slots, the checkpoints with a commit record, the spare records of
the pages in the blocks opened after the newest of them, its write sequence, lifetime counters and logical capacity, the blocks with a factory
marker, and the blocks whose erase a supply warning interrupted (R444). -/
structure Rebuild where
  slots      : List TableSlot
  commits    : List Nat
  pages      : List (FlashAddr × Spare)
  wseq       : Nat
  life       : List Nat
  logicalGib : Nat
  marked     : List Nat
  cut        : List Nat
  deriving DecidableEq, Repr

/-- What the reads of region 0 return (R446), by LUN, page and retry level: the bytes of the page, or none when it is uncorrectable. -/
abbrev ImageReads := List (List (List (List Byte)))

/-- A word of the staging SRAM: its physical bank, and its address there (R363). -/
structure SramAddr where
  bank : Nat
  addr : Nat
  deriving DecidableEq, Repr

/-- Why the retirement rule is applied to a staging SRAM bank (R355, R363): a read has corrected a word of it, or a refilled word has failed
again. -/
inductive SramEvent where
  | corrected (bank : Nat)
  | failedAgain (place : SramAddr)
  deriving DecidableEq, Repr

/-- The staging SRAM content that a two-bit error hit (R362). -/
inductive SramWord where
  | ringSlot (q : Queue)      -- a ring slot filled by a producer
  | fabricOut (q : Queue)     -- a slot that the fabric has written
  | matrixStaging (row : Nat)  -- physical row that the word feeds
  deriving DecidableEq, Repr

/-- The commands: one constructor per row of the table. -/
inductive Instr where
  -- queue commands: the record at the head of the queue
  | barrier (q : Queue)
  | gather
  | gatherSparse
  | fold
  | foldSparse
  | closeStep
  | update
  | updateSparse
  | matrix
  | commit
  | discard
  | reshard
  | emitCyan
  | snapshot
  | restore
  | stashPut
  | stashGet
  | prefetch
  | demote
  | keep
  | release
  | clear
  | refetch
  | slateUpdate
  | fence
  -- registers
  | doorbell (q : Queue) (value : Word)
  | qCfgWrite (q : Queue) (value : Word)
  | queueRingZeroed (q : Queue)
  | check (value : Word)
  | checkComplete
  | apply (value : Word)
  | applyTakeEffect
  | groupApply
  | groupApplyTimeout
  | cancel (value : Word)
  | load (value : Word)
  | quiesce (value : Word)
  | fabSwap (value : Word)
  | mxSwap (value : Word)
  | svMir0Read (port : RegPort)
  | svImgWr (port : RegPort) (data : Word)
  | imgClear (port : RegPort) (value : Word)
  | imgCommit (port : RegPort) (value : Word)
  | imgProgramDone
  | svReset (port : RegPort) (value : Word)
  | registerWrite (port : RegPort) (offset : Nat) (value : Word)
  -- host memory port and channel ports
  | hmRead (sub : Nat) (op : Nat) (addr : Nat) (beats : Nat) (tag : Nat)
  | hmWrite (sub : Nat) (addr : Nat) (beats : Nat) (tag : Nat) (data : List Byte) (mask : List Bool)
  | chReadReturn (line : Nat) (data : List Byte) (checkWord : BitVec 32) (parityOk : Bool) (attempt : Nat)
  | chWriteResponse (line : Nat) (berr : Bool) (attempt : Nat)
  | chReadTimeout (line : Nat) (attempt : Nat)
  | chPortFail (port : Nat)
  -- beat
  | beatBoundary (offsetNs : Int)
  | beatSyncMsg (m : BeatMsg)
  | syncFault
  | beatRelock
  | masterLost
  -- commit
  | commitVote (src : Nat) (step : Nat) (v : Nat) (vote : Vote) (held : Nat) (reason : Nat)
  | commitVoteTimeout
  | commitDecision (step : Nat) (d : Decision) (f : Nat) (inst : Nat) (info : Nat)
  | commitFlip
  | commitInDoubt
  | inDoubtTimeout
  | journalQuery (src : Nat) (step : Nat)
  | journalAnswer (src : Nat) (step : Nat) (d : Decision) (f : Nat)
  | groupBarrierTimeout (q : Queue)
  -- norm reduction
  | reducePartial (src : Nat) (step : Nat) (value : KX)
  | reduceTotal (step : Nat) (total : KX) (kappa : KX)
  | normTimeout
  -- Cyan rounds and multicast
  | roundOpen (src : Nat) (mapId : Nat) (step : Nat)
  | mcSlot (src : Nat) (mapId : Nat) (step : Nat) (entry : Nat) (ofs : Nat) (data : List Byte)
  | slotAck (src : Nat) (entry : Nat) (ofs : Nat)
  | mcDetach (receiver : Nat)
  | detachNotice (src : Nat)
  | catchupStart
  | catchupAbandon
  | abandonNotice (src : Nat)
  | laggingTimeout
  -- mirror and tier partner
  | mirrorData (src : Nat) (snapId : Nat) (step : Nat) (tiles : List SnapTile) (records : List SnapRecord)
  | sealMsg (src : Nat) (snapId : Nat)
  | tierMirrorPage (src : Nat) (page : Nat) (digest : BitVec 32) (data : List Byte)
  | pageFetchRequest (src : Nat) (page : Nat) (digest : BitVec 32)
  | pageFetchAnswer (src : Nat) (page : Nat) (data : Option (List Byte))
  | pageFetchTimeout (page : Nat)
  | digestRequest (src : Nat) (snapId : Nat) (first : Nat) (last : Nat)
  | digestAnswer (src : Nat) (snapId : Nat) (step : Nat) (tables : List DigestTable)
  | restoreTableTimeout
  | restoreConfirm
  -- peer link
  | peerFrame (port : Nat) (lanes : List (List (BitVec 128)))   -- the 50 words that each active lane has received (R405)
  | peerPortUp (port : Nat) (peer : Nat) (locked : Nat)
  | laneSwap (port : Nat) (lane : Nat)
  | linkCalibration (port : Nat) (lane : Nat)
  -- streams
  | ringClaim (ring : Nat)
  | tileComplete (q : Queue)
  | streamStop (q : Queue) (engine : Nat) (t : TileId) (page : Nat)
  | streamStopEnd (engine : Nat)
  | streamWatchdog (engine : Nat)
  -- tier and flash
  | tierTimeout (page : Nat)
  | promotionStart (page : Nat)
  | bridgeReadStatus (ch : Nat) (opid : Nat) (ecc : Nat) (corrected : Nat) (data : List Byte) (spare : Spare)
  | bridgeProgramStatus (ch : Nat) (opid : Nat) (failed : Bool)
  | bridgeEraseStatus (ch : Nat) (opid : Nat) (failed : Bool)
  | bridgeTimeout (ch : Nat) (opid : Nat)
  | eviction
  | garbageCollection (lun : Nat)
  | wearLevelling
  | refresh
  | patrol
  | checkpoint
  -- background
  | scrubSlice (lines : Nat)
  | telemetrySlice
  | greyStarved (cls : GreyClass)
  -- faults
  | laneError (phys : Nat) (kind : Nat) (cell : Nat) (flight : InFlight)
  | laneSpareLoaded
  | rowError (phys : Nat) (kind : Nat)
  | sramDoubleBit (place : SramAddr) (word : SramWord)
  | sramBankRetire (event : SramEvent)
  | sequencerHalt
  | sequencerCorrected
  | supplyWarnAssert
  | supplyWarnClear
  | amberHoldExpire
  | amberVerifyDone (back : List (Nat × List (BitVec 32)))
  | supplyGoodFall
  | tempSample (code : Nat)
  | tempInvalid
  -- reset
  | rstNAssert
  | resetSequenceStart (straps : Straps)
  | imagePhase (flash : ImageReads)
  | stackInitDone
  | flashRebuildDone (r : Rebuild)
  | fabricPhase
  -- test wrapper
  | wsBypass
  | wsExtest
  | wsIntest
  | wsMbist
  -- further mirror, bridge and load events
  | mirrorTileRequest (src : Nat) (snapId : Nat) (t : TileId)
  | mirrorTileAnswer (src : Nat) (snapId : Nat) (t : TileId) (data : Option (List Byte))
  | mirrorLossReport (src : Nat) (snapId : Nat)
  | roundOpenRefused (src : Nat)
  | bridgeSetFeaturesStatus (ch : Nat) (opid : Nat)
  | variantReloadDone (variant : Nat)
  | sramBankCopyDone
  deriving DecidableEq, Repr

end Sys2Proof
end

