-- ==== Sys2Proof/Decode.lean ====
section
/-! DEFINITION. The command that a word spells by the opcode table's bits. No row of spec/opcode_table.json gives bits, so
no word spells a command. -/
namespace Sys2Proof

/-- The command read from a word of nbits bits: none, since the table gives no row any bits. -/
def decodeTableWord (_nbits _w : Nat) : Option Instr := none

end Sys2Proof
end

