-- ==== Sys2Proof/Config.lean ====
section
/-! DEFINITION. The free values: what the manual leaves open. None of them has a body, so no statement can rest on a
value of theirs. Each is applied to the model's own counter State.freeCtr (or to what the value depends on). -/
namespace Sys2Proof.Config

/-- Free value (R128, R129): which physical lane draws, and how many ACLK cycles its generator has advanced since the
last seeding, at the n-th draw of free-running bits. Assumption log 1. -/
opaque freeLane : Nat → Nat
opaque freeCycles : Nat → Nat

/-- Free value: a byte read from a table of engine private memory whose byte layout the manual does not give
(contribution logs, forward-copy pool, sort scratch, block and frame tables, staged copies), by address and draw.
Assumption log 3. -/
opaque freeByte : Nat → Nat → Byte

/-- Free value (R469): the channel time used by one owner in the last completed beat, in 1/256 of a beat.
Assumption log 4. -/
opaque freeShare : Nat → Nat → Nat

/-- Free value (R417): the pass bits that the memory self-test leaves in its data register. Assumption log 9. -/
opaque freeMbist : Nat → Word

/-- Free value: the sequencer program counter (R469), whose microcode the manual does not give. Assumption log 8. -/
opaque freePc : Nat → Nat

/-- Free value: the SITE code of a NaN met by SLATE_UPDATE, for which the manual gives none (R192, R195), and the codes of a
Slate tile whose descriptor has no W. Assumption log 7. -/
opaque freeSite : Nat → Nat

/-- Free value (R74): whether a command of the step that ended with this result, and left nothing held, forbids the commit.
Assumption log 28. -/
opaque forbidsCommit : Nat → Bool

/-- Free value: where the system area holds a page of a slot or a commit record of a checkpoint, and the UNIT of its spare record (R342).
Assumption log 5. -/
opaque freeFlash : Nat → Nat

/-- Free value: the length of a message in a frame, and its bytes, whose layout the manual does not give (R405, R407), by draw and place.
Assumption log 25. -/
opaque freeLen : Nat → Nat
opaque freeText : Nat → Nat → Byte

/-- Free value (R451): the size of the sequencer's patch area in words, which the manual does not give. Assumption log 8. -/
opaque patchArea : Nat

end Sys2Proof.Config
end

