-- ==== Sys2Proof/Machine/Bits.lean ====
section
/-! DEFINITION. Bit fields of 64-bit words, little-endian byte strings, sparse maps, CRC (R146, R448). -/
namespace Sys2Proof.Machine

/-- Bits [hi:lo] of a word, as a number. -/
def fld (w : Word) (hi lo : Nat) : Nat := (w.extractLsb' lo (hi + 1 - lo)).toNat

/-- Bit i of a word. -/
def bit (w : Word) (i : Nat) : Bool := w.getLsbD i

/-- The word whose bits [hi:lo] are 1 and whose other bits are 0. -/
def fmask (hi lo : Nat) : Word := BitVec.ofNat 64 ((2 ^ (hi + 1 - lo) - 1) <<< lo)

/-- The word w with bits [hi:lo] replaced by v (cut to the field's width). -/
def setFld (w : Word) (hi lo v : Nat) : Word :=
  (w &&& ~~~(fmask hi lo)) ||| (BitVec.ofNat 64 (v <<< lo) &&& fmask hi lo)

/-- The word w with bit i set to b. -/
def setBit (w : Word) (i : Nat) (b : Bool) : Word := setFld w i i b.toNat

/-- A saturating addition to the counter field [hi:lo] (R457: it stays at its largest value). -/
def satAdd (w : Word) (hi lo n : Nat) : Word :=
  setFld w hi lo (min (fld w hi lo + n) (2 ^ (hi + 1 - lo) - 1))

/-- A subtraction from a counter field, not below 0. -/
def decFld (w : Word) (hi lo n : Nat) : Word := setFld w hi lo (fld w hi lo - n)

/-- The n little-endian bytes of v (R91). -/
def leBytes : Nat → Nat → List Byte
  | 0, _ => []
  | n + 1, v => BitVec.ofNat 8 v :: leBytes n (v / 256)

/-- The number that little-endian bytes spell (R91). -/
def ofLe : List Byte → Nat
  | [] => 0
  | b :: t => b.toNat + 256 * ofLe t

/-- Bytes lo to lo + n - 1 of a byte string, as a little-endian number. -/
def leAt (bs : List Byte) (lo n : Nat) : Nat := ofLe ((bs.drop lo).take n)

/-- Bits [hi:lo] of a number. -/
def nfld (v hi lo : Nat) : Nat := (v >>> lo) % 2 ^ (hi + 1 - lo)

/-- v rounded up to a multiple of n. -/
def roundUp (v n : Nat) : Nat := if n = 0 then v else (v + n - 1) / n * n

/-- The least number of pieces of size n that hold v. -/
def cdiv (v n : Nat) : Nat := if n = 0 then 0 else (v + n - 1) / n

/-- The value of a sparse map at a key; d gives what an unlisted key reads as. -/
def fget {V : Type} (d : Nat → V) : FMap V → Nat → V
  | [], k => d k
  | (a, v) :: t, k => if k = a then v else if k < a then d k else fget d t k

/-- The sparse map with one key changed, in canonical form again. -/
def fset {V : Type} [DecidableEq V] (d : Nat → V) : FMap V → Nat → V → FMap V
  | [], k, v => if v = d k then [] else [(k, v)]
  | (a, w) :: t, k, v =>
    if k < a then (if v = d k then (a, w) :: t else (k, v) :: (a, w) :: t)
    else if k = a then (if v = d k then t else (k, v) :: t)
    else (a, w) :: fset d t k v

/-- Keys strictly rising. -/
def fsorted {V : Type} : FMap V → Bool
  | [] => true
  | e :: t => (match t with | [] => true | x :: _ => decide (e.1 < x.1)) && fsorted t

/-- The canonical form of a sparse map: keys strictly rising, no entry equal to what an unlisted key reads as. -/
def fwf {V : Type} [DecidableEq V] (d : Nat → V) (m : FMap V) : Bool :=
  fsorted m && m.all (fun e => !decide (e.2 = d e.1))

/-- A sparse map in canonical form: itself when it has it already. -/
def fcanon {V : Type} [DecidableEq V] (d : Nat → V) (m : FMap V) : FMap V :=
  if fwf d m then m else m.foldr (fun e acc => fset d acc e.1 e.2) []

/-- n consecutive values from key k of a sparse map, in one walk. -/
def fgetRange {V : Type} (d : Nat → V) : FMap V → Nat → Nat → List V
  | _, _, 0 => []
  | [], k, n + 1 => d k :: fgetRange d [] (k + 1) n
  | (a, v) :: t, k, n + 1 =>
    if a = k then v :: fgetRange d t (k + 1) n else d k :: fgetRange d ((a, v) :: t) (k + 1) n

/-- The entries from key lo on. -/
def fdrop {V : Type} (m : FMap V) (lo : Nat) : FMap V := m.dropWhile (fun e => e.1 < lo)

/-- The values vs as entries from key k on, those that equal the default left out. -/
def fentries {V : Type} [DecidableEq V] (d : Nat → V) : Nat → List V → FMap V
  | _, [] => []
  | k, v :: t => if v = d k then fentries d (k + 1) t else (k, v) :: fentries d (k + 1) t

/-- The sparse map with the values vs at the keys from k on, in canonical form again. -/
def fsetRange {V : Type} [DecidableEq V] (d : Nat → V) (m : FMap V) (k : Nat) (vs : List V) : FMap V :=
  m.filter (fun e => e.1 < k) ++ fentries d k vs ++ m.filter (fun e => k + vs.length ≤ e.1)

/-- One bit of a reflected CRC with a polynomial, in the operations on numbers that Lean's kernel computes at once. -/
def crcBit (p c : Nat) : Nat := Nat.xor (Nat.div c 2) (Nat.mul p (Nat.mod c 2))

/-- Eight bits of it. -/
def crcByte (p c : Nat) : Nat := crcBit p (crcBit p (crcBit p (crcBit p (crcBit p (crcBit p (crcBit p (crcBit p c)))))))

/-- The CRC register after a byte string. -/
def crcFold (p : Nat) : List Byte → Nat → Nat
  | [], c => c
  | b :: t, c => crcFold p t (crcByte p (Nat.xor c b.toNat))

/-- CRC-32C (R146): Castagnoli polynomial 0x1EDC_6F41 reflected, initial value and final exclusive OR all ones. -/
def crc32c (bs : List Byte) : BitVec 32 := ~~~BitVec.ofNat 32 (crcFold 0x82F63B78 bs 0xFFFFFFFF)

/-- CRC-32 of IEEE 802.3 (R448): polynomial 0x04C1_1DB7 reflected, initial value and final exclusive OR all ones. -/
def crc32 (bs : List Byte) : BitVec 32 := ~~~BitVec.ofNat 32 (crcFold 0xEDB88320 bs 0xFFFFFFFF)

/-- Element i of a list, or the given value beyond its end. -/
def nth {α : Type} (d : α) : List α → Nat → α
  | [], _ => d
  | a :: _, 0 => a
  | _ :: t, n + 1 => nth d t n

/-- The list with element i replaced (unchanged beyond its end). -/
def setNth {α : Type} : List α → Nat → α → List α
  | [], _, _ => []
  | _ :: t, 0, v => v :: t
  | a :: t, n + 1, v => a :: setNth t n v

/-- A list brought to a length. -/
def padTo {α : Type} (z : α) (n : Nat) (l : List α) : List α := (l ++ List.replicate (n - l.length) z).take n

end Sys2Proof.Machine
end

