-- ==== Sys2Proof/Machine/Kx.lean ====
section
/-! DEFINITION. Arithmetic in KX, the internal form of the rule fabric (R84, R85, R103, R117, R118). Every operation
works on the exact value and rounds once; the Bool beside a result says that it saturated (NUM_STAT.KX_OVF). -/
namespace Sys2Proof.Machine

/-- What a KX code stands for (R85): NaN, a signed zero, or ±m × 2^e with m > 0. -/
inductive KxVal where
  | nan
  | zero (neg : Bool)
  | fin (neg : Bool) (m : Nat) (e : Int)
  deriving DecidableEq, Repr

/-- The canonical KX NaN (R85). -/
def kxNaN : KX := 0x3FFFFFFFF#34
/-- +0. -/
def kxZero : KX := 0#34
/-- Zero of a sign. -/
def kxZeroS (neg : Bool) : KX := if neg then 0x200000000#34 else 0#34
/-- +1. -/
def kxOne : KX := 0x0FF800000#34
/-- KX maximum of a sign (R85): exponent 1022 is the largest finite exponent field. -/
def kxMaxS (neg : Bool) : KX := if neg then 0x3FF7FFFFF#34 else 0x1FF7FFFFF#34

/-- The sign bit. -/
def kxNeg (a : KX) : Bool := a.getLsbD 33

/-- The exponent field [32:23]. -/
def kxExp (a : KX) : Nat := (a.toNat >>> 23) % 1024

/-- Decoding a KX code (R85): exponent 0 is zero whatever the fraction holds, exponent 1023 is NaN. -/
def kxVal (a : KX) : KxVal :=
  if kxExp a = 0 then .zero (kxNeg a)
  else if kxExp a = 1023 then .nan
  else .fin (kxNeg a) (2 ^ 23 + a.toNat % 2 ^ 23) ((kxExp a : Int) - 534)

/-- Is the code NaN? -/
def kxIsNaN (a : KX) : Bool := kxExp a = 1023

/-- Is the code a zero? -/
def kxIsZero (a : KX) : Bool := kxExp a = 0

/-- m × 2^e rounded to p significant bits, to nearest with ties to even (R97, R103); sticky says that the true value
lies strictly above m × 2^e by less than one unit of m. The result is (mantissa, exponent), not yet range-checked. -/
def roundSig (p : Nat) (m : Nat) (e : Int) (sticky : Bool) : Nat × Int :=
  let len := Nat.log2 m + 1
  if len ≤ p then (m, e)
  else
    let sh := len - p
    let q := m >>> sh
    let r := m % 2 ^ sh
    let half := 2 ^ (sh - 1)
    let up := r > half || (r == half && (sticky || q % 2 == 1))
    (if up then q + 1 else q, e + sh)

/-- ±m × 2^e (m > 0) rounded into KX (R85, R103): the code, and whether it saturated. -/
def kxRound (neg : Bool) (m : Nat) (e : Int) (sticky : Bool) : KX × Bool :=
  if m = 0 then (kxZeroS neg, false)
  else
    let (q, f) := roundSig 24 m e sticky
    let top := (Nat.log2 q : Int) + f          -- floor(log2 |value|)
    if top > 511 then (kxMaxS neg, true)
    else if top < -510 then (kxZeroS neg, false)
    else
      let mant := if Nat.log2 q ≤ 23 then q <<< (23 - Nat.log2 q) else q >>> (Nat.log2 q - 23)
      (BitVec.ofNat 34 ((if neg then 2 ^ 33 else 0) + ((top + 511).toNat <<< 23) + mant % 2 ^ 23), false)

/-- The exact signed integer m at a common exponent. -/
def alignInt (neg : Bool) (m : Nat) (e e0 : Int) : Int :=
  let v : Int := ((m <<< (e - e0).toNat : Nat) : Int)
  if neg then -v else v

/-- An exact integer times 2^e, rounded once; an exact zero is +0 (R103). -/
def kxOfInt (v : Int) (e : Int) : KX × Bool :=
  if v = 0 then (kxZero, false) else kxRound (v < 0) v.natAbs e false

/-- a + b (R103). -/
def kxAdd (a b : KX) : KX × Bool :=
  match kxVal a, kxVal b with
  | .nan, _ => (kxNaN, false)
  | _, .nan => (kxNaN, false)
  | .zero _, .zero _ => (kxZero, false)
  | .zero _, .fin .. => (b, false)
  | .fin .., .zero _ => (a, false)
  | .fin s m e, .fin t n f =>
    let g := min e f
    kxOfInt (alignInt s m e g + alignInt t n f g) g

/-- The code with its sign inverted. -/
def kxFlip (a : KX) : KX := a ^^^ 0x200000000#34

/-- NEG (R117): exact; NaN gives the canonical NaN. -/
def kxNegate (a : KX) : KX := if kxIsNaN a then kxNaN else kxFlip a

/-- a − b (R103). -/
def kxSub (a b : KX) : KX × Bool := kxAdd a (kxNegate b)

/-- a × b (R103). -/
def kxMul (a b : KX) : KX × Bool :=
  match kxVal a, kxVal b with
  | .nan, _ => (kxNaN, false)
  | _, .nan => (kxNaN, false)
  | .zero s, .zero t => (kxZeroS (s != t), false)
  | .zero s, .fin t _ _ => (kxZeroS (s != t), false)
  | .fin s _ _, .zero t => (kxZeroS (s != t), false)
  | .fin s m e, .fin t n f => kxRound (s != t) (m * n) (e + f) false

/-- a × b + c, rounded once; exactly zero gives +0 (R103). -/
def kxFma (a b c : KX) : KX × Bool :=
  match kxVal a, kxVal b, kxVal c with
  | .nan, _, _ => (kxNaN, false)
  | _, .nan, _ => (kxNaN, false)
  | _, _, .nan => (kxNaN, false)
  | .fin s m e, .fin t n f, .zero _ => kxRound (s != t) (m * n) (e + f) false
  | .fin s m e, .fin t n f, .fin u k g =>
    let h := min (e + f) g
    kxOfInt (alignInt (s != t) (m * n) (e + f) h + alignInt u k g h) h
  | _, _, .fin .. => (c, false)
  | _, _, .zero _ => (kxZero, false)

/-- c − a × b, rounded once (FNMA). -/
def kxFnma (a b c : KX) : KX × Bool := kxFma (kxNegate a) b c

/-- a / b (R103): x / ±0 is KX maximum with KX_OVF, ±0 / ±0 is NaN. -/
def kxDiv (a b : KX) : KX × Bool :=
  match kxVal a, kxVal b with
  | .nan, _ => (kxNaN, false)
  | _, .nan => (kxNaN, false)
  | .zero _, .zero _ => (kxNaN, false)
  | .zero s, .fin t _ _ => (kxZeroS (s != t), false)
  | .fin s _ _, .zero t => (kxMaxS (s != t), true)
  | .fin s m e, .fin t n f =>
    kxRound (s != t) ((m <<< 60) / n) (e - f - 60) ((m <<< 60) % n != 0)

/-- 1 / a (R103). -/
def kxRcp (a : KX) : KX × Bool := kxDiv kxOne a

/-- The integer square root, bit by bit from bit k − 1 down. -/
def isqrtFrom : Nat → Nat → Nat → Nat
  | 0, _, r => r
  | k + 1, n, r =>
    let c := r + 2 ^ k
    isqrtFrom k n (if c * c ≤ n then c else r)

/-- The largest r with r × r ≤ n. -/
def isqrt (n : Nat) : Nat := isqrtFrom (Nat.log2 n / 2 + 1) n 0

/-- √a (R103). -/
def kxSqrt (a : KX) : KX × Bool :=
  match kxVal a with
  | .nan => (kxNaN, false)
  | .zero s => (kxZeroS s, false)
  | .fin true _ _ => (kxNaN, false)
  | .fin false m e =>
    let (m, e) := if e % 2 = 0 then (m, e) else (2 * m, e - 1)
    let v := m <<< 60
    let r := isqrt v
    kxRound false r (e / 2 - 30) (r * r != v)

/-- 1 / √a (R103): +0 gives +KX maximum, −0 gives −KX maximum, both with KX_OVF. -/
def kxRsqrt (a : KX) : KX × Bool :=
  match kxVal a with
  | .nan => (kxNaN, false)
  | .zero s => (kxMaxS s, true)
  | .fin true _ _ => (kxNaN, false)
  | .fin false m e =>
    let (m, e) := if e % 2 = 0 then (m, e) else (2 * m, e - 1)
    let r := isqrt (2 ^ 120 / m)
    kxRound false r (-(e / 2) - 60) (r * r * m != 2 ^ 120)

/-- The value's order as a comparison of exact values: none when a NaN takes part (R103). -/
def kxCmp (a b : KX) : Option Ordering :=
  match kxVal a, kxVal b with
  | .nan, _ => none
  | _, .nan => none
  | .zero _, .zero _ => some .eq
  | .zero _, .fin t _ _ => some (if t then .gt else .lt)
  | .fin s _ _, .zero _ => some (if s then .lt else .gt)
  | .fin s m e, .fin t n f =>
    let g := min e f
    some (compare (alignInt s m e g) (alignInt t n f g))

/-- a < b; false when unordered. -/
def kxLt (a b : KX) : Bool := kxCmp a b == some .lt
/-- a ≤ b; false when unordered. -/
def kxLe (a b : KX) : Bool := kxCmp a b == some .lt || kxCmp a b == some .eq
/-- a = b; false when unordered. -/
def kxEq (a b : KX) : Bool := kxCmp a b == some .eq

/-- Minimum (R103): a NaN operand is ignored, −0 lies below +0. -/
def kxMin (a b : KX) : KX :=
  if kxIsNaN a then (if kxIsNaN b then kxNaN else b)
  else if kxIsNaN b then a
  else if kxIsZero a && kxIsZero b then (if kxNeg a then a else b)
  else if kxLt b a then b else a

/-- Maximum (R103). -/
def kxMax (a b : KX) : KX :=
  if kxIsNaN a then (if kxIsNaN b then kxNaN else b)
  else if kxIsNaN b then a
  else if kxIsZero a && kxIsZero b then (if kxNeg a then b else a)
  else if kxLt a b then b else a

/-- ABS (R117). -/
def kxAbs (a : KX) : KX := if kxIsNaN a then kxNaN else a &&& 0x1FFFFFFFF#34

/-- CSGN (R116): magnitude of a, sign of b. -/
def kxCsgn (a b : KX) : KX :=
  if kxIsNaN a || kxIsNaN b then kxNaN
  else (a &&& 0x1FFFFFFFF#34) ||| (b &&& 0x200000000#34)

/-- SGN (R116): ±1, or the zero itself. -/
def kxSgn (a : KX) : KX :=
  if kxIsNaN a then kxNaN
  else if kxIsZero a then a
  else if kxNeg a then kxFlip kxOne else kxOne

/-- The integer that a value truncates to toward zero; none for NaN. -/
def kxTrunc (a : KX) : Option Int :=
  match kxVal a with
  | .nan => none
  | .zero _ => some 0
  | .fin s m e =>
    let v : Nat := if 0 ≤ e then m <<< e.toNat else m >>> (-e).toNat
    some (if s then -(v : Int) else v)

/-- SCALB (R117): a × 2^n, n = b truncated; NaN when |b| ≥ 2^16. -/
def kxScalb (a b : KX) : KX × Bool :=
  match kxTrunc b with
  | none => (kxNaN, false)
  | some n =>
    if n.natAbs ≥ 65536 then (kxNaN, false)
    else match kxVal a with
      | .nan => (kxNaN, false)
      | .zero s => (kxZeroS s, false)
      | .fin s m e => kxRound s m (e + n) false

/-- The bits of n below its most significant set bit, high to low, applied by square and multiply (R118). -/
def pownLoop (a : KX) (n : Nat) : Nat → KX → Bool → KX × Bool
  | 0, r, o => (r, o)
  | k + 1, r, o =>
    let (r2, o2) := kxMul r r
    if (n >>> k) % 2 = 1 then
      let (r3, o3) := kxMul r2 a
      pownLoop a n k r3 (o || o2 || o3)
    else pownLoop a n k r2 (o || o2)

/-- a^n for 0 ≤ n ≤ 65,535 (R118). -/
def kxPowNat (a : KX) (n : Nat) : KX × Bool :=
  if kxIsNaN a then (kxNaN, false)
  else if n = 0 then (kxOne, false)
  else pownLoop a n (Nat.log2 n) a false

/-- POWN (R116, R118). -/
def kxPown (a b : KX) : KX × Bool :=
  match kxTrunc b with
  | none => (kxNaN, false)
  | some n => if n < 0 || n > 65535 then (kxNaN, false) else kxPowNat a n.toNat

/-- A small natural number, exact in KX (0 to 2^24). -/
def kxOfNat (n : Nat) : KX := (kxRound false n 0 false).1

/-- 2^−n in KX (R275: ε = 2^−EPS_EXP). -/
def kxPow2Neg (n : Nat) : KX := (kxRound false 1 (-(n : Int)) false).1

/-- A power of two in KX. -/
def kxPow2 (n : Int) : KX × Bool := kxRound false 1 n false

end Sys2Proof.Machine
end

