-- ==== Sys2Proof/Machine/Formats.lean ====
section
/-! DEFINITION. The storage formats and their conversion sites (R86 to R102, R105, R188, R293). -/
namespace Sys2Proof.Machine

/-- The storage formats that a site can have (R10, R86); KS8 is a scale format only. -/
inductive Fmt where
  | kw16 | kg16 | k32a | k8p | k8r | k4 | k2 | k1
  deriving DecidableEq, Repr

/-- The format of an index of R10; KS8 (8) and every other index is no site format (R152). -/
def fmtOf : Nat → Option Fmt
  | 0 => some .kw16 | 1 => some .kg16 | 2 => some .k32a | 3 => some .k8p
  | 4 => some .k8r | 5 => some .k4 | 6 => some .k2 | 7 => some .k1
  | _ => none

/-- The index of a format (R10). -/
def Fmt.idx : Fmt → Nat
  | .kw16 => 0 | .kg16 => 1 | .k32a => 2 | .k8p => 3 | .k8r => 4 | .k4 => 5 | .k2 => 6 | .k1 => 7

/-- Bits per element (R86, R91). -/
def Fmt.bits : Fmt → Nat
  | .kw16 => 16 | .kg16 => 16 | .k32a => 32 | .k8p => 8 | .k8r => 8 | .k4 => 4 | .k2 => 2 | .k1 => 1

/-- Width F of the fraction field (R86); 0 for K2 and K1, which have none. -/
def Fmt.frac : Fmt → Nat
  | .kw16 => 9 | .kg16 => 8 | .k32a => 22 | .k8p => 4 | .k8r => 2 | .k4 => 1 | .k2 => 0 | .k1 => 0

/-- Exponent bias (R86). -/
def Fmt.bias : Fmt → Nat
  | .kw16 => 31 | .kg16 => 63 | .k32a => 255 | .k8p => 3 | .k8r => 15 | .k4 => 1 | .k2 => 0 | .k1 => 0

/-- Largest exponent code, all ones (R86). -/
def Fmt.emax : Fmt → Nat
  | .kw16 => 63 | .kg16 => 127 | .k32a => 511 | .k8p => 7 | .k8r => 31 | .k4 => 3 | .k2 => 0 | .k1 => 0

/-- The format has a NaN code: all ones (R86). -/
def Fmt.hasNaN : Fmt → Bool
  | .kw16 | .kg16 | .k32a | .k8p | .k8r => true
  | .k4 | .k2 | .k1 => false

/-- The NaN code, all ones (R86). -/
def Fmt.nanCode (f : Fmt) : Nat := 2 ^ f.bits - 1

/-- The sites at which dither may be enabled (R102). -/
def Fmt.canDither : Fmt → Bool
  | .kw16 | .kg16 | .k8p | .k8r | .k4 => true
  | .k32a | .k2 | .k1 => false

/-- Block scales (R94): required, optional, or not permitted, for a block field that is zero or not. -/
def Fmt.blkOk (f : Fmt) (hasBlk : Bool) : Bool :=
  match f with
  | .k4 | .k2 | .k1 => hasBlk
  | .kg16 | .k8p | .k8r => true
  | .kw16 | .k32a => !hasBlk

/-- The counts of one conversion site (R105). -/
structure Counts where
  total  : Nat
  sat    : Nat
  vanish : Nat
  nan    : Nat
  viol   : Nat
  deriving DecidableEq, Repr

def zeroCounts : Counts := ⟨0, 0, 0, 0, 0⟩

def addCounts (a b : Counts) : Counts :=
  ⟨a.total + b.total, a.sat + b.sat, a.vanish + b.vanish, a.nan + b.nan, a.viol + b.viol⟩

/-- The result of decoding one element: its KX value and what it counts (R87, R105). -/
structure Dec where
  v      : KX
  vanish : Bool
  nan    : Bool
  viol   : Bool
  deriving DecidableEq, Repr

/-- The exact KX code of ±m × 2^e (m > 0, at most 24 bits, exponent in range). -/
def kxExact (neg : Bool) (m : Nat) (e : Int) : KX := (kxRound neg m e false).1

/-- Decoding an element code with its block scale (R83, R86 to R92): sc is the scale code, none where unscaled. -/
def decodeElem (f : Fmt) (code : Nat) (sc : Option Nat) : Dec :=
  let s : Int := match sc with | some c => (c : Int) - 127 | none => 0
  let base : Dec :=
    match f with
    | .k1 => ⟨kxExact (code % 2 = 1) 1 s, false, false, false⟩
    | .k2 =>
      match code % 4 with
      | 1 => ⟨kxExact false 1 s, false, false, false⟩
      | 3 => ⟨kxExact true 1 s, false, false, false⟩
      | 2 => ⟨kxZero, false, false, true⟩
      | _ => ⟨kxZero, false, false, false⟩
    | f =>
      let c := code % 2 ^ f.bits
      let neg := c / 2 ^ (f.bits - 1) = 1
      let ex := c / 2 ^ f.frac % (f.emax + 1)
      let fr := c % 2 ^ f.frac
      if f.hasNaN && c = f.nanCode then ⟨kxNaN, false, true, false⟩
      else if ex = 0 then ⟨kxZeroS neg, fr != 0, false, false⟩
      else ⟨kxExact neg (2 ^ f.frac + fr) ((ex : Int) - f.bias - f.frac + s), false, false, false⟩
  if sc = some 255 then { base with v := kxNaN, nan := true } else base

/-- The largest finite mantissa (with hidden bit) of a sign: one step less where the NaN code takes the slot (R87). -/
def Fmt.maxMant (f : Fmt) (neg : Bool) : Nat :=
  if f.hasNaN && neg then 2 ^ (f.frac + 1) - 2 else 2 ^ (f.frac + 1) - 1

/-- The code of the largest finite value of a sign (R88); K2 and K1 have magnitude 1. -/
def Fmt.maxCode (f : Fmt) (neg : Bool) : Nat :=
  match f with
  | .k2 => if neg then 3 else 1
  | .k1 => if neg then 1 else 0
  | f => (if neg then 2 ^ (f.bits - 1) else 0) + f.emax * 2 ^ f.frac + f.maxMant neg % 2 ^ f.frac

/-- The overflow threshold of a sign (R88): largest finite magnitude plus half its ULP, as mantissa and exponent.
K2 has largest magnitude 1 and threshold 1.5 (R90). -/
def Fmt.threshold (f : Fmt) (neg : Bool) : Nat × Int :=
  match f with
  | .k2 => (3, -1)
  | f => (2 * f.maxMant neg + 1, (f.emax : Int) - f.bias - f.frac - 1)

/-- m × 2^e ≤ n × 2^f on exact magnitudes. -/
def dyLe (m : Nat) (e : Int) (n : Nat) (f : Int) : Bool :=
  let g := min e f
  m <<< (e - g).toNat ≤ n <<< (f - g).toNat

/-- The result of encoding one element (R97, R105). nan tells a NaN output, which in K4, K2 and K1 asks for the block
rewrite of R95. -/
structure Enc where
  code   : Nat
  ovf    : Bool
  vanish : Bool
  nan    : Bool
  deriving DecidableEq, Repr

/-- Rounding an exact magnitude a = m × 2^e into a format's codes (R97, R99), below the overflow threshold. -/
def encodeMag (f : Fmt) (neg : Bool) (m : Nat) (e : Int) : Enc :=
  let sgn := if neg then 2 ^ (f.bits - 1) else 0
  match f with
  | .k2 => if dyLe m e 1 (-1) then ⟨0, false, true, false⟩ else ⟨if neg then 3 else 1, false, false, false⟩
  | f =>
    let (q, x) := roundSig (f.frac + 1) m e false
    let top := (Nat.log2 q : Int) + x
    if q = 0 || top < 1 - (f.bias : Int) then ⟨sgn, false, true, false⟩
    else
      let mant := if Nat.log2 q ≤ f.frac then q <<< (f.frac - Nat.log2 q) else q >>> (Nat.log2 q - f.frac)
      ⟨sgn + (top + f.bias).toNat * 2 ^ f.frac + mant % 2 ^ f.frac, false, false, false⟩

/-- The encode procedure of R97 on the quotient x / scale (R95): nanMode is the site's overflow mode, d the dither
integer D of R101 where dither is enabled. -/
def encodeElem (f : Fmt) (x : KX) (sc : Option Nat) (nanMode : Bool) (d : Option Int) : Enc :=
  match kxVal x with
  | .nan => ⟨if f.hasNaN then f.nanCode else 0, false, false, true⟩
  | .zero neg =>
    match f with
    | .k1 => ⟨neg.toNat, false, false, false⟩
    | .k2 => ⟨0, false, false, false⟩
    | f => ⟨if neg then 2 ^ (f.bits - 1) else 0, false, false, false⟩
  | .fin neg m e0 =>
    match f with
    | .k1 => ⟨neg.toNat, false, false, false⟩
    | f =>
      let e := match sc with | some c => e0 - ((c : Int) - 127) | none => e0
      -- R101: D × 2^−16 ULP of the undithered magnitude, exact
      let (m, e) : Nat × Int :=
        match d with
        | none => (m, e)
        | some dv =>
          let u : Int := (Nat.log2 m : Int) + e - f.frac - 16
          let g := min e u
          (((m <<< (e - g).toNat : Nat) : Int) + dv * ((2 ^ (u - g).toNat : Nat) : Int)).toNat |> (·, g)
      let (tm, te) := f.threshold neg
      if dyLe tm te m e then
        if nanMode then ⟨if f.hasNaN then f.nanCode else 0, true, false, true⟩
        else ⟨f.maxCode neg, true, false, false⟩
      else encodeMag f neg m e

/-- The counts of one encode (R105): an overflow in NAN mode counts in SAT and NAN. -/
def encCounts (e : Enc) : Counts := ⟨1, e.ovf.toNat, e.vanish.toNat, e.nan.toNat, 0⟩

/-- The counts of one decode (R105). -/
def decCounts (d : Dec) : Counts := ⟨1, 0, d.vanish.toNat, d.nan.toNat, d.viol.toNat⟩

/-- The value that an element's own code decodes to (R123): a NaN element of K4, K2 or K1 is the canonical NaN. -/
def encValue (f : Fmt) (e : Enc) (sc : Option Nat) : KX :=
  if e.nan then kxNaN else (decodeElem f e.code sc).v

/-- Encoding one block (R95): in K4, K2 and K1 a NaN among its outputs writes scale NaN, all codes 0, and every element
then counts in NAN (R105). DESIGN CHOICE: an element that would have vanished counts in VANISH there too (assumption log 36). The result is the codes, the scale code, and the counts. -/
def encodeBlock (f : Fmt) (es : List Enc) (sc : Nat) : List Nat × Nat × Counts :=
  let c := es.foldl (fun c e => addCounts c (encCounts e)) zeroCounts
  if !f.hasNaN && es.any (·.nan) then (es.map (fun _ => 0), 255, { c with nan := es.length })
  else (es.map (·.code), sc, c)

/-- Largest positive finite magnitude (R188: Fmax), as mantissa and exponent. -/
def Fmt.fmax (f : Fmt) : Nat × Int :=
  match f with
  | .k2 | .k1 => (1, 0)
  | f => (f.maxMant false, (f.emax : Int) - f.bias - f.frac)

/-- The scale code 127 + margin + ⌈log2(M / Fmax)⌉ limited to 0x00 to 0xFE; 0x7F for M = 0 or NaN (R188, R293). -/
def scaleFor (f : Fmt) (mx : KX) (margin : Nat) : Nat :=
  match kxVal mx with
  | .fin _ m e =>
    let (fm, fe) := f.fmax
    let k0 : Int := (Nat.log2 m : Int) + e - ((Nat.log2 fm : Int) + fe)
    let k := if dyLe m e fm (fe + k0) then k0 else k0 + 1
    let c : Int := 127 + margin + k
    if c < 0 then 0 else if c > 254 then 254 else c.toNat
  | _ => 127

/-- The largest magnitude of some values, ignoring NaN; NaN when every value is NaN, +0 for none (R103, R127). -/
def maxMag (xs : List KX) : KX :=
  match xs with
  | [] => kxZero
  | x :: t => t.foldl (fun a b => kxMax a (kxAbs b)) (kxAbs x)

/-- The scale of a block chosen from that block alone (R293). -/
def blockScale (f : Fmt) (xs : List KX) : Nat := scaleFor f (maxMag xs) 0

/-- The size of a block for a BLK code (R151): 0 none, else 2^(2 + code). -/
def blkSize (blk : Nat) : Nat := if blk = 0 then 0 else 2 ^ (blk + 2)

/-- Codes of fewer than 8 bits packed into bytes, per codes to a byte, from the least significant bit; n bounds the
number of bytes (R91). -/
def packBits (bits per : Nat) : Nat → List Nat → List Byte
  | 0, _ => []
  | _ + 1, [] => []
  | n + 1, c :: cs =>
    BitVec.ofNat 8 (((c :: cs).take per).foldr (fun c acc => acc * 2 ^ bits + c % 2 ^ bits) 0)
      :: packBits bits per n ((c :: cs).drop per)

/-- Codes packed into bytes (R91): multi-byte formats little-endian. -/
def packCodes (f : Fmt) (codes : List Nat) : List Byte :=
  match f with
  | .k4 | .k2 | .k1 => packBits f.bits (8 / f.bits) codes.length codes
  | f => codes.flatMap (fun c => leBytes (f.bits / 8) c)

/-- Element i of a packed byte string (R91). -/
def unpackCode (f : Fmt) (bs : List Byte) (i : Nat) : Nat :=
  match f with
  | .k4 | .k2 | .k1 =>
    let per := 8 / f.bits
    (nth 0#8 bs (i / per)).toNat / 2 ^ (f.bits * (i % per)) % 2 ^ f.bits
  | f => leAt bs (i * (f.bits / 8)) (f.bits / 8)

/-- The codes of a byte, from the least significant bit on (R91). -/
def splitByte (bits per v : Nat) : List Nat := (List.range per).map (fun i => v / 2 ^ (bits * i) % 2 ^ bits)

/-- The codes that multi-byte elements spell (R91); n bounds their number. -/
def unpackWords (k : Nat) : Nat → List Byte → List Nat
  | 0, _ => []
  | n + 1, bs => ofLe (bs.take k) :: unpackWords k n (bs.drop k)

/-- The first n codes of a packed byte string (R91). -/
def unpackCodes (f : Fmt) (bs : List Byte) (n : Nat) : List Nat :=
  match f with
  | .k4 | .k2 | .k1 => (bs.flatMap (fun b => splitByte f.bits (8 / f.bits) b.toNat)).take n
  | f => unpackWords (f.bits / 8) n bs

/-- The bytes of n packed elements. -/
def packedBytes (f : Fmt) (n : Nat) : Nat := cdiv (n * f.bits) 8

/-- A KX value encoded to K32A without dither (R127, R262, R272): in SAT mode, or in NAN mode where OVF_FORCE says so (R106). -/
def toK32a (nan : Bool) (x : KX) : Nat := (encodeElem .k32a x none nan none).code

/-- A K32A code decoded to KX. -/
def ofK32a (c : Nat) : KX := (decodeElem .k32a c none).v

end Sys2Proof.Machine
end

