-- ==== Sys2Proof/Machine/Tvd.lean ====
section
/-! DEFINITION. The contents of a Tvedrid bit-stream as plain data (R145 to R158). -/
namespace Sys2Proof.Machine

/-- A cell word (R153): operation, operand selectors, guard, carry, keyed flag, site field. -/
structure CellW where
  op     : Nat
  sa     : Nat
  sb     : Nat
  sc     : Nat
  gen    : Bool
  gpol   : Bool
  gcell  : Nat
  carry  : Bool
  cidx   : Nat
  keyed  : Bool
  site   : Nat
  deriving DecidableEq, Repr

/-- A rule variant (R149): constants, 24 site words (R151), the cells of each pass. -/
structure Variant where
  num    : Nat
  passes : Nat
  consts : List KX
  sites  : List Word
  cells1 : List CellW
  cells2 : List CellW
  opt    : Bool            -- OPTIONAL of its section (R147)
  deriving DecidableEq, Repr

/-- A stream entry (R154). -/
structure StreamE where
  producer : Nat
  consumer : Nat
  engine   : Nat
  sem      : Nat
  slots    : Nat
  rsv      : Nat
  slotLog2 : Nat
  deriving DecidableEq, Repr

/-- A matrix entry (R158). -/
structure MxProg where
  program : Nat
  kind    : Nat
  passes  : Nat
  iter    : Nat
  p0      : Word
  p1      : Word
  p2      : Word
  deriving DecidableEq, Repr

/-- A checked bit-stream: what one file configures (R144). -/
structure Tvd where
  variants : List Variant
  streams  : List StreamE
  programs : List MxProg
  buildId  : Word
  deriving DecidableEq, Repr, Inhabited

/-- No bit-stream resident (R165). -/
def Tvd.empty : Tvd := ⟨[], [], [], 0#64⟩

/-- A cell word taken apart (R153). -/
def decodeCell (w : Word) : CellW :=
  ⟨fld w 63 56, fld w 54 48, fld w 46 40, fld w 38 32, bit w 31, bit w 30, fld w 29 24, bit w 23, fld w 22 20,
   bit w 19, fld w 18 16⟩

/-- A stream entry taken apart (R154). -/
def decodeStream (w : Word) : StreamE :=
  ⟨fld w 63 56, fld w 55 48, fld w 47 40, fld w 39 32, fld w 31 24, fld w 23 16, fld w 15 8⟩

/-- The four words of a matrix entry taken apart (R158). -/
def decodeProg (w p0 p1 p2 : Word) : MxProg :=
  ⟨fld w 63 56, fld w 55 48, fld w 47 40, fld w 39 32, p0, p1, p2⟩

/-- The word of a site (R151): unused where the list gives none. -/
def Variant.site (v : Variant) (i : Nat) : Word := nth 0xF000000000000000#64 v.sites i

/-- Format of a site word; none when the site is unused (R151). -/
def siteFmt (w : Word) : Option Fmt := fmtOf (fld w 63 60)
/-- BLK code of a site word (R151). -/
def siteBlk (w : Word) : Nat := fld w 59 57
/-- Sharing direction of a site word: true along columns (R151). -/
def siteDir (w : Word) : Bool := bit w 56

/-- The cells of a pass. -/
def Variant.cells (v : Variant) (pass : Nat) : List CellW := if pass = 2 then v.cells2 else v.cells1

/-- The variant of a number, if the bit-stream holds it. -/
def Tvd.variant? (t : Tvd) (n : Nat) : Option Variant := t.variants.find? (·.num == n)

/-- The matrix program of a number, if the bit-stream holds it. -/
def Tvd.prog? (t : Tvd) (k : Nat) : Option MxProg := t.programs.find? (·.program == k)

/-- The role that a stream of the variant serves at input port n (R155, R156); 16 when a matrix program feeds it. -/
def Tvd.inRole (t : Tvd) (v n : Nat) : Option Nat :=
  (t.streams.find? (·.consumer == 0x20 + 8 * v + n)).map (fun e => if e.producer < 0x10 then e.producer else 16)

/-- The role that output port n of the variant writes (R155, R156); 16 when a matrix program takes it. -/
def Tvd.outRole (t : Tvd) (v n : Nat) : Option Nat :=
  (t.streams.find? (·.producer == 0x40 + 8 * v + n)).map
    (fun e => if 0x10 ≤ e.consumer ∧ e.consumer < 0x20 then e.consumer - 0x10 else 16)

/-- The site of a variant that reads a role, if one does. -/
def Tvd.readSite (t : Tvd) (v role : Nat) : Option Nat := (List.range 8).find? (fun n => t.inRole v n == some role)

/-- The site (8 to 15) of a variant that writes a role, if one does. -/
def Tvd.writeSite (t : Tvd) (v role : Nat) : Option Nat :=
  ((List.range 8).find? (fun n => t.outRole v n == some role)).map (· + 8)

/-- Every site of a variant that reads (0 to 7) or writes (8 to 15) a role (R161). -/
def Tvd.roleSites (t : Tvd) (v role : Nat) : List Nat :=
  (List.range 8).filter (fun n => t.inRole v n == some role) ++
    ((List.range 8).filter (fun n => t.outRole v n == some role)).map (· + 8)

/-- The site word that serves a role in a variant (R161, R171): the reading site, else the writing one. -/
def Tvd.roleSite (t : Tvd) (v : Variant) (role : Nat) : Option Word :=
  match t.readSite v.num role with
  | some n => some (v.site n)
  | none => (t.writeSite v.num role).map v.site

/-- BLK code of a role under a variant (R171): 0 when the variant neither reads nor writes it. -/
def Tvd.roleBlk (t : Tvd) (v : Variant) (role : Nat) : Nat :=
  match t.roleSite v role with | some w => siteBlk w | none => 0

/-- The program that feeds input port n of a variant, if one does (R155). -/
def Tvd.inProg (t : Tvd) (v n : Nat) : Option Nat :=
  (t.streams.find? (fun e => e.consumer == 0x20 + 8 * v + n && 0x70 ≤ e.producer && e.producer < 0x78)).map (·.producer - 0x70)

/-- The program that output port n of a variant feeds, if it does (R155). -/
def Tvd.outProg (t : Tvd) (v n : Nat) : Option Nat :=
  (t.streams.find? (fun e => e.producer == 0x40 + 8 * v + n && 0x60 ≤ e.consumer && e.consumer < 0x70)).map
    (fun e => (e.consumer - 0x60) / 2)

/-- What feeds input j of program k (R155): a role, or an output port of a variant. -/
inductive MxIn where
  | none
  | role (r : Nat)
  | port (v n : Nat)
  deriving DecidableEq, Repr

/-- The producer of input j of a program. DESIGN CHOICE (assumption log 39): a stream from another program brings nothing, since no rule says what a
program's output gives another program. -/
def Tvd.mxIn (t : Tvd) (k j : Nat) : MxIn :=
  match t.streams.find? (·.consumer == 0x60 + 2 * k + j) with
  | some e =>
    if e.producer < 0x10 then .role e.producer
    else if 0x40 ≤ e.producer && e.producer < 0x60 then .port ((e.producer - 0x40) / 8) (e.producer % 8)
    else .none
  | none => .none

/-- The role that a program writes, or none when its output goes through its buffer (R206, R208). -/
def Tvd.mxOutRole (t : Tvd) (k : Nat) : Option Nat :=
  (t.streams.find? (·.producer == 0x70 + k)).bind (fun e =>
    if 0x10 ≤ e.consumer && e.consumer < 0x20 then some (e.consumer - 0x10) else none)

/-- The program reads ACC (R205 item 4). -/
def Tvd.mxReadsAcc (t : Tvd) (k : Nat) : Bool := [0, 1].any (fun j => t.mxIn k j == .role 3)

/-- A program's output reaches a descriptor (R206, R208): it feeds its variant, or writes its AUX1. -/
def Tvd.serves (t : Tvd) (m : MxProg) (variant : Nat) (aux1 : Bool) : Bool :=
  (List.range 8).any (fun n => t.inProg variant n == some m.program) || (aux1 && t.mxOutRole m.program == some 5)

/-- The KIND 0x03 programs that bring back what a KIND 0x02 program projected: their input comes from a variant that it feeds (R206, R214). -/
def Tvd.backFrom (t : Tvd) (m : MxProg) : List MxProg :=
  t.programs.filter (fun b => b.kind = 3 && [0, 1].any (fun j => match t.mxIn b.program j with
    | .port v _ => t.serves m v false
    | _ => false))

end Sys2Proof.Machine
end

