-- ==== Sys2Proof/Machine/Fabric.lean ====
section
/-! DEFINITION. The rule fabric (R114 to R133): the result of one position, of one tile, random bits, tile reductions.
All lanes compute alike; a result depends on its lane through free-running bits alone. -/
namespace Sys2Proof.Machine

/-- A cell's result (R113): a KX value or a predicate. -/
inductive LaneVal where
  | val (x : KX)
  | pred (b : Bool)
  deriving DecidableEq, Repr

/-- The value of a result; CHECK keeps predicates out of value operands (R115). -/
def LaneVal.kx : LaneVal → KX
  | .val x => x
  | .pred _ => kxZero

/-- The predicate of a result. -/
def LaneVal.bool : LaneVal → Bool
  | .val _ => false
  | .pred b => b

/-- The operands of an operation code (R116): how many it uses, from a on. -/
def opArity (op : Nat) : Nat :=
  if op = 0x00 ∨ op = 0x3C then 0
  else if op = 0x05 ∨ op = 0x06 ∨ op = 0x28 then 3
  else if (0x02 ≤ op ∧ op ≤ 0x04) ∨ op = 0x07 ∨ op = 0x0B ∨ op = 0x0C ∨ op = 0x0F ∨ op = 0x11 ∨ op = 0x12 ∨
      (0x20 ≤ op ∧ op ≤ 0x23) ∨ op = 0x25 ∨ op = 0x26 then 2
  else 1

/-- The operation codes of R116. -/
def opKnown (op : Nat) : Bool :=
  op ≤ 0x12 || (0x20 ≤ op && op ≤ 0x28) || (0x30 ≤ op && op ≤ 0x33) || (0x38 ≤ op && op ≤ 0x3A) || op = 0x3C

/-- The operations whose result is a predicate (R116). -/
def opIsPred (op : Nat) : Bool := 0x20 ≤ op && op ≤ 0x27

/-- The encode sites among the operations: CVT, CVTM, STORE, STOREM (R116). -/
def opIsSite (op : Nat) : Bool := 0x30 ≤ op && op ≤ 0x33

/-- STORE and STOREM. -/
def opIsStore (op : Nat) : Bool := op = 0x32 || op = 0x33

/-- CVTM and STOREM keep a running maximum (R124). -/
def opIsMax (op : Nat) : Bool := op = 0x31 || op = 0x33

/-- The reductions (R127). -/
def opIsRed (op : Nat) : Bool := 0x38 ≤ op && op ≤ 0x3A

/-- Latency in ACLK cycles (R116). -/
def opLatency (op : Nat) : Nat :=
  if 0x02 ≤ op ∧ op ≤ 0x04 then 3
  else if op = 0x05 ∨ op = 0x06 then 4
  else if op = 0x07 ∨ op = 0x09 then 12
  else if op = 0x08 ∨ op = 0x0A then 8
  else if op = 0x12 then 96
  else if opIsSite op then 2
  else if op = 0x00 then 0
  else 1

/-- The site index of R151 that a site cell uses: output ports 8 to 15, CVT slots 16 to 23. -/
def cellSite (c : CellW) : Nat := if opIsStore c.op then 8 + c.site else 16 + c.site

/-- The value operations of R116 on KX operands (R103, R117, R118), with the saturation flag. -/
def evalVal (op : Nat) (a b c : KX) : KX × Bool :=
  if op = 0x02 then kxAdd a b
  else if op = 0x03 then kxSub a b
  else if op = 0x04 then kxMul a b
  else if op = 0x05 then kxFma a b c
  else if op = 0x06 then kxFnma a b c
  else if op = 0x07 then kxDiv a b
  else if op = 0x08 then kxRcp a
  else if op = 0x09 then kxSqrt a
  else if op = 0x0A then kxRsqrt a
  else if op = 0x0B then (kxMin a b, false)
  else if op = 0x0C then (kxMax a b, false)
  else if op = 0x0D then (kxAbs a, false)
  else if op = 0x0E then (kxNegate a, false)
  else if op = 0x0F then (kxCsgn a b, false)
  else if op = 0x10 then (kxSgn a, false)
  else if op = 0x11 then kxScalb a b
  else if op = 0x12 then kxPown a b
  else (a, false)

/-- The predicate operations of R116 (R120). -/
def evalPred (op : Nat) (a b : LaneVal) : Bool :=
  if op = 0x20 then kxLt a.kx b.kx
  else if op = 0x21 then kxLe a.kx b.kx
  else if op = 0x22 then kxEq a.kx b.kx
  else if op = 0x23 then !kxEq a.kx b.kx
  else if op = 0x24 then kxIsNaN a.kx
  else if op = 0x25 then a.bool && b.bool
  else if op = 0x26 then a.bool || b.bool
  else !a.bool

/-- The word of the free-running generator after one cycle's state change (R128). -/
def xsNext (s : Word) : Word :=
  let s := s ^^^ (s <<< 13)
  let s := s ^^^ (s >>> 7)
  s ^^^ (s <<< 17)

/-- The state after n cycles. -/
def xsIter : Nat → Word → Word
  | 0, s => s
  | n + 1, s => xsIter n (xsNext s)

/-- The seed of a physical lane's generator (R128). -/
def xsSeed (genSeed : Word) (p : Nat) : Word :=
  let s := genSeed ^^^ (BitVec.ofNat 64 (p + 1) * 0x9E3779B97F4A7C15#64)
  if s = 0#64 then 1#64 else s

/-- A free-running random word (R128, R129): which lane drew it and after how many cycles is a free value. -/
def freeWord (genSeed : Word) (draw : Nat) : Word :=
  xsIter (Config.freeCycles draw + 1) (xsSeed genSeed (Config.freeLane draw % 264)) * 0x2545F4914F6CDD1D#64

/-- mix of R130. -/
def mix (z : Word) : Word :=
  let z := z + 0x9E3779B97F4A7C15#64
  let z := (z ^^^ (z >>> 30)) * 0xBF58476D1CE4E5B9#64
  let z := (z ^^^ (z >>> 27)) * 0x94D049BB133111EB#64
  z ^^^ (z >>> 31)

/-- keyed_word of R130. -/
def keyedWord (keySeed : Word) (step tensor index pass : Nat) : Word :=
  let h := mix (keySeed ^^^ BitVec.ofNat 64 step)
  let h := mix (h ^^^ BitVec.ofNat 64 tensor)
  let h := mix (h ^^^ BitVec.ofNat 64 index)
  if pass = 2 then mix h else h

/-- D of R101 from 16 random bits, as two's complement. -/
def ditherOf (u : Nat) : Int := if u < 32768 then u else (u : Int) - 65536

/-- The engine-wide numeric overrides of NUM_CFG (R106). -/
structure NumCfg where
  keyed    : Bool
  noDither : Bool
  ovf      : Nat
  deriving DecidableEq, Repr

/-- NUM_CFG taken apart (R106). -/
def numCfgOf (w : Word) : NumCfg := ⟨bit w 7, bit w 6, fld w 1 0⟩

/-- The overflow mode of a site under OVF_FORCE (R98, R106): true is NAN mode. -/
def nanMode (n : NumCfg) (siteOvf : Nat) : Bool :=
  if n.ovf = 1 then false else if n.ovf = 2 then true else siteOvf = 1

/-- A NaN event of one position (R126). -/
structure NanEv where
  pos  : Nat
  cell : Nat
  op   : Nat
  a    : KX
  b    : KX
  c    : KX
  site : Nat
  deriving DecidableEq, Repr

/-- What an encode site produced at one position: site index, element, running-maximum operand. -/
structure SiteOut where
  site : Nat
  enc  : Enc
  amax : Option KX
  deriving DecidableEq, Repr

/-- One position on its way through a pass. -/
structure LaneSt where
  vs    : List LaneVal            -- results so far, cell 0 first
  outs  : List SiteOut            -- encode sites met, in cell order
  taps  : List (Nat × KX)         -- 4 × (pass − 1) + tap, and what enters it
  rnd   : Nat                     -- random consumers met in this pass (R129)
  ovf   : Bool                    -- a result saturated (R107)
  nan   : Option NanEv            -- first NaN origin of the position (R126)
  deriving DecidableEq, Repr

/-- What every cell of a position sees: ports, constants, arguments, carried values, row step difference, random words,
overrides, and the scale code of each encode site. -/
structure LaneEnv where
  ins    : List KX
  consts : List KX
  args   : List KX
  xs     : List LaneVal
  delta  : KX
  freeW  : Word
  keyW   : Word
  num    : NumCfg
  scales : List (Option Nat)
  sites  : List Word
  pos    : Nat
  pass   : Nat
  deriving DecidableEq, Repr

/-- The value that a selector names (R114). -/
def selVal (e : LaneEnv) (vs : List LaneVal) (sel : Nat) : LaneVal :=
  if sel < 0x28 then nth (.val kxZero) vs sel
  else if sel < 0x30 then .val (nth kxZero e.ins (sel - 0x28))
  else if sel < 0x40 then .val (nth kxZero e.consts (sel - 0x30))
  else if sel < 0x50 then .val (nth kxZero e.args (sel - 0x40))
  else if sel < 0x58 then nth (.val kxZero) e.xs (sel - 0x50)
  else if sel = 0x59 then .val kxOne
  else if sel = 0x5A then .val e.delta
  else .val kxZero

/-- A selector names a constant or an argument (R126). -/
def selIsKA (sel : Nat) : Bool := 0x30 ≤ sel && sel < 0x50

/-- The 16 random bits of consumer k (R129). -/
def rndBits (e : LaneEnv) (k : Nat) (keyed : Bool) : Nat :=
  fld (if keyed || e.num.keyed then e.keyW else e.freeW) (16 * k + 15) (16 * k)

/-- The result of an encode site at one position (R122, R123): the element, and the value it decodes to. -/
def evalSite (e : LaneEnv) (c : CellW) (a : KX) (k : Nat) : Enc × KX :=
  let w := nth 0xF000000000000000#64 e.sites (cellSite c)
  match siteFmt w with
  | none => (⟨0, false, false, false⟩, a)
  | some f =>
    let sc := nth none e.scales (cellSite c)
    let d := if bit w 53 && !e.num.noDither then some (ditherOf (rndBits e k (bit w 52))) else none
    let r := encodeElem f a sc (nanMode e.num (fld w 55 54)) d
    (r, encValue f r sc)

/-- The cell is a random consumer (R129): RAND, or an encode site with dither enabled. -/
def isConsumer (e : LaneEnv) (c : CellW) : Bool :=
  c.op = 0x3C || (opIsSite c.op && bit (nth 0#64 e.sites (cellSite c)) 53)

/-- The cell evaluates its operation at this position (R121). -/
def guardOn (vs : List LaneVal) (c : CellW) : Bool :=
  !c.gen || ((nth (.pred false) vs c.gcell).bool != c.gpol)

/-- The NaN origin at a cell, if it is one (R126): its result is NaN and no operand was, or it reads a constant or an
argument that is NaN. -/
def originAt (c : CellW) (opsNan ka resNan : Bool) : Bool := (resNan && !opsNan) || (ka && c.op != 0)

/-- One cell at one position. DESIGN CHOICE: a NaN event reports an operand that is a predicate as +0 (assumption log 7). DESIGN CHOICE
(assumption log 40): a cell whose guard is off reads its operand a and not b and c, so that a NaN constant or argument at a is an origin there;
a SEL whose guard is off gives its predicate a, which a value operand reads as +0. -/
def stepCell (e : LaneEnv) (n : Nat) (st : LaneSt) (c : CellW) : LaneSt :=
  let va := selVal e st.vs c.sa
  let vb := selVal e st.vs c.sb
  let vc := selVal e st.vs c.sc
  let on := guardOn st.vs c
  let k := st.rnd
  let rnd := if isConsumer e c then k + 1 else k
  let ar := if on then opArity c.op else min 1 (opArity c.op)
  let nanV := fun (v : LaneVal) => kxIsNaN v.kx
  let opsNan := (1 ≤ ar && nanV va) || (2 ≤ ar && nanV vb) || (3 ≤ ar && nanV vc)
  let ka := (1 ≤ ar && selIsKA c.sa && nanV va) || (2 ≤ ar && selIsKA c.sb && nanV vb) ||
    (3 ≤ ar && selIsKA c.sc && nanV vc)
  let (res, out, tap, ovf) : LaneVal × Option SiteOut × Option KX × Bool :=
    if !on then (if opIsPred c.op then .pred false else va, none, none, false)
    else if opIsPred c.op then (.pred (evalPred c.op va vb), none, none, false)
    else if c.op = 0x28 then (if va.bool then vb else vc, none, none, false)
    else if opIsSite c.op then
      let (r, v) := evalSite e c va.kx k
      (.val v, some ⟨cellSite c, r, if opIsMax c.op then some (kxAbs va.kx) else none⟩, none, false)
    else if opIsRed c.op then
      let (x, o) := if c.op = 0x39 then kxMul va.kx va.kx
        else if c.op = 0x3A then (kxAbs va.kx, false) else (va.kx, false)
      (va, none, some x, o)
    else if c.op = 0x3C then (.val (kxRound false (rndBits e k c.keyed) (-16) false).1, none, none, false)
    else if c.op = 0x01 then (va, none, none, false)
    else let (x, o) := evalVal c.op va.kx vb.kx vc.kx; (.val x, none, none, o)
  let ev : NanEv :=
    ⟨e.pos, (if e.pass = 2 then 40 + n else n), c.op, va.kx, vb.kx, vc.kx, if opIsSite c.op then cellSite c else 0xFF⟩
  { vs := st.vs ++ [res]
    outs := match out with | some o => st.outs ++ [o] | none => st.outs
    taps := match tap with | some x => st.taps ++ [(4 * (e.pass - 1) + c.site, x)] | none => st.taps
    rnd := rnd
    ovf := st.ovf || ovf
    nan := match st.nan with
      | some v => some v
      | none => if originAt c opsNan ka (nanV res) then some ev else none }

/-- The cells of a pass in ascending order. -/
def runCells (e : LaneEnv) : Nat → List CellW → LaneSt → LaneSt
  | _, [], st => st
  | n, c :: cs, st => runCells e (n + 1) cs (stepCell e n st c)

/-- The carried results of pass 1 (R133): X0, X1, … in the order of CARRY_IDX. -/
def carried (cells : List CellW) (vs : List LaneVal) : List LaneVal :=
  (List.range 8).map (fun i =>
    match (List.range cells.length).find? (fun n =>
      match cells[n]? with | some c => c.carry && c.cidx = i | none => false) with
    | some n => nth (.val kxZero) vs n
    | none => .val kxZero)

/-- One decoded element at an input port: its value and what the port's decode site counts (R87, R105). -/
abbrev PortIn := Option Dec

/-- Everything that one position of a tile brings. -/
structure PosIn where
  pos   : Nat            -- position within the tile
  index : Nat            -- position within the tensor, the keyed index (R172)
  void  : Bool
  ports : List PortIn    -- input ports 0 to 7; none when the variant does not use the port
  ovf   : Bool           -- the decay of a moment input saturated (R107, R185)
  delta : KX
  deriving DecidableEq, Repr

/-- The configuration a tile runs under: variant, arguments A0 to A15, overrides, seeds, step, tensor, the scale code of
each encode site, and the draw number of its first random word. -/
structure TileCfg where
  v       : Variant
  args    : List KX
  num     : NumCfg
  genSeed : Word
  keySeed : Word
  step    : Nat
  tensor  : Nat
  scales  : List (Option Nat)
  draw    : Nat
  deriving DecidableEq, Repr

/-- What one position gives: its encode-site outputs, what enters each tap, saturation, its NaN event. -/
structure PosOut where
  void : Bool
  outs : List SiteOut
  taps : List (Nat × KX)
  ovf  : Bool
  nan  : Option NanEv
  deriving DecidableEq, Repr

/-- The NaN event of an input port (R126): cell 0x80 + port, operation 0x00; the site is the port's own. DESIGN CHOICE: its operand codes
are the canonical NaN, +0 and +0 (assumption log 7). -/
def portNan (p : PosIn) : Option NanEv :=
  ((List.range 8).find? (fun i => match nth none p.ports i with | some d => d.nan | none => false)).map
    (fun i => ⟨p.pos, 0x80 + i, 0, kxNaN, kxZero, kxZero, i⟩)

/-- One position through one or two passes (R112, R133). DESIGN CHOICE: a saturation at a void position does not set KX_OVF (assumption
log 10). -/
def runPos (cfg : TileCfg) (p : PosIn) : PosOut :=
  let env : Nat → List LaneVal → LaneEnv := fun pass xs =>
    { ins := p.ports.map (fun d => match d with | some d => if p.void then kxZero else d.v | none => kxZero)
      consts := cfg.v.consts, args := cfg.args, xs := xs, delta := p.delta
      freeW := freeWord cfg.genSeed (cfg.draw + 2 * p.pos + pass - 1)
      keyW := keyedWord cfg.keySeed cfg.step cfg.tensor p.index pass
      num := cfg.num, scales := cfg.scales, sites := cfg.v.sites, pos := p.pos, pass := pass }
  let st0 : LaneSt := ⟨[], [], [], 0, false, if p.void then none else portNan p⟩
  let s1 := runCells (env 1 []) 0 cfg.v.cells1 st0
  let s2 := if cfg.v.passes = 2 then
      runCells (env 2 (carried cfg.v.cells1 s1.vs)) 0 cfg.v.cells2 { s1 with vs := [], rnd := 0 }
    else s1
  ⟨p.void, s2.outs, s2.taps, (s2.ovf || p.ovf) && !p.void, if p.void then none else s2.nan⟩

/-- One level of the binary tree of R127: neighbours combined in pairs, and whether a combination saturated (R107). -/
def treeLevel (f : KX → KX → KX × Bool) : List KX → List KX × Bool
  | a :: b :: t => let (x, o) := f a b; let (l, p) := treeLevel f t; (x :: l, o || p)
  | l => (l, false)

/-- The fixed tree over 2^n positions (R127), and whether a combination saturated. -/
def treeFold (f : KX → KX → KX × Bool) : Nat → List KX → KX × Bool
  | 0, l => (nth kxZero l 0, false)
  | n + 1, l => let (l, o) := treeLevel f l; let (x, p) := treeFold f n l; (x, o || p)

/-- How a tap combines two values (R127): by maximum, or by an addition that may saturate. -/
def tapJoin (op : Nat) (a b : KX) : KX × Bool := if op = 0x3A then (kxMax a b, false) else kxAdd a b

/-- A tap's result over a tile (R127): missing positions enter as +0, 13 levels. -/
def tapResult (op : Nat) (xs : List KX) : KX × Bool :=
  treeFold (tapJoin op) 13 (xs ++ List.replicate (8192 - xs.length) kxZero)

/-- The cells that feed taps, as (4 × (pass − 1) + tap, operation). -/
def tapCells (v : Variant) : List (Nat × Nat) :=
  ((v.cells1.filter (fun c => opIsRed c.op)).map (fun c => (c.site, c.op))) ++
  (if v.passes = 2 then (v.cells2.filter (fun c => opIsRed c.op)).map (fun c => (4 + c.site, c.op)) else [])

/-- The result of a tile (R122 to R127): the elements of each output port by position, the counts and the running maximum
of each site, the K32A taps, saturation, and its one NaN event. -/
structure TileRes where
  outs : List (List (Bool × SiteOut))     -- per position: is it void, and its site outputs
  amax : List (Nat × KX)                  -- site, largest magnitude over the positions that are not void
  taps : List (Nat × Nat × Enc)           -- tap, operation, K32A encoding
  ovf  : Bool
  nan  : Option NanEv
  deriving DecidableEq, Repr

/-- The running maximum of a site over a tile's positions (R124): NaN when every one is NaN, none when none counted. A CVTM slot may
serve a cell of each pass (R153). -/
def siteAmax (ps : List PosOut) (site : Nat) : Option KX :=
  let xs := (ps.filter (fun p => !p.void)).flatMap (fun p => (p.outs.filter (·.site == site)).filterMap (·.amax))
  match xs with
  | [] => none
  | x :: t => some (t.foldl kxMax x)

/-- The sites that counted NAN at a position (R105, R126): the input ports, the encode sites whose element is NaN, and the output ports
whose block the position lies in when it is written with scale NaN. -/
def nanSites (v : Variant) (rs : List PosOut) (p : PosIn) : List Nat :=
  let nanAt := fun (site i : Nat) => ((rs.drop i).head?.map (fun r => !r.void && r.outs.any (fun o => o.site = site && o.enc.nan))).getD false
  (List.range 8).filter (fun n => match nth none p.ports n with | some d => d.nan | none => false) ++
    ((List.range 16).map (8 + ·)).filter (fun site =>
      let b := blkSize (siteBlk (v.site site))
      nanAt site p.pos || (site < 16 && b != 0 && ((siteFmt (v.site site)).map (fun f => !f.hasNaN)).getD false &&
        (List.range b).any (fun k => nanAt site (p.pos / b * b + k))))

/-- The site of a tile's NaN event (R126): the origin's own, else the lowest one that counted NAN at the position, 0xFF when none did. -/
def nanSite (v : Variant) (ps : List PosIn) (rs : List PosOut) (e : NanEv) : NanEv :=
  if e.site != 0xFF then e
  else match (ps.drop e.pos).head? with
    | some p => { e with site := (nanSites v rs p).foldl min 0xFF }
    | none => e

/-- A tile through the fabric. Under OVF_FORCE 2 the taps' conversions are in NAN mode too (R106; assumption log 36). -/
def runTile (cfg : TileCfg) (ps : List PosIn) : TileRes :=
  let rs := ps.map (runPos cfg)
  let tap := fun (i op : Nat) =>
    tapResult op (rs.map (fun (r : PosOut) => match r.taps.find? (·.1 == i) with | some (_, x) => x | none => kxZero))
  let taps : List (Nat × Nat × KX × Bool) := (tapCells cfg.v).map (fun (i, op) => (i, op, tap i op))
  { outs := rs.map (fun r => r.outs.map (fun o => (r.void, o)))
    amax := (List.range 24).filterMap (fun s => (siteAmax rs s).map (fun m => (s, m)))
    taps := taps.map (fun (i, op, x, _) => (i, op, encodeElem .k32a x none (nanMode cfg.num 0) none))
    ovf := rs.any (·.ovf) || taps.any (fun x => x.2.2.2)
    nan := (rs.findSome? (·.nan)).map (nanSite cfg.v ps rs) }

/-- Depth of a pass (R119): finish times of its cells in order. -/
def cellTimes : List CellW → List Nat → List Nat
  | [], fs => fs
  | c :: cs, fs =>
    let ready := fun (sel : Nat) =>
      if sel < 0x28 then nth 0 fs sel else if sel < 0x30 then 2 else 0
    let ar := opArity c.op
    let start := max (max (if 1 ≤ ar then ready c.sa else 0) (if 2 ≤ ar then ready c.sb else 0))
      (max (if 3 ≤ ar then ready c.sc else 0) (if c.gen then nth 0 fs c.gcell else 0))
    cellTimes cs (fs ++ [start + opLatency c.op])

/-- The largest finish time of any cell in a pass (R119). -/
def passDepth (cells : List CellW) : Nat := (cellTimes cells []).foldl max 0

end Sys2Proof.Machine
end

