-- ==== Sys2Proof/Machine/Regs.lean ====
section
/-! DEFINITION. The register map (R455 to R482): offsets by name, which bits each access code of R13 makes writable, and
the Reset column (R461) with INST_ID, FEED_ID and the reset cause at 0. -/
namespace Sys2Proof.Machine

/-- BLOCK_ID (R5). -/
def oBlockId : Nat := 0x0
/-- BLOCK_VERSION (R6). -/
def oBlockVersion : Nat := 0x8
/-- CAPS0 (R7). -/
def oCaps0 : Nat := 0x10
/-- CAPS1 (R8). -/
def oCaps1 : Nat := 0x18
/-- CAPS2 (R9). -/
def oCaps2 : Nat := 0x20
/-- CAPS3 (R10). -/
def oCaps3 : Nat := 0x28
/-- CTL (R463). -/
def oCtl : Nat := 0x1000
/-- STAT (R465). -/
def oStat : Nat := 0x1008
/-- HM_STAT (R399). -/
def oHmStat : Nat := 0x1040
/-- HM_LAST (R399). -/
def oHmLast : Nat := 0x1048
/-- STAGE_CTL (R62). -/
def oStageCtl : Nat := 0x2000
/-- STAGE_RESULT (R63). -/
def oStageResult : Nat := 0x2008
/-- STAGE_APPLY_BEAT (R63). -/
def oStageApplyBeat : Nat := 0x2010
/-- COMMIT_GROUP (R70). -/
def oCommitGroup : Nat := 0x2040
/-- COMMIT_STATE (R78). -/
def oCommitState : Nat := 0x2048
/-- COMMIT_BEAT (R78). -/
def oCommitBeat : Nat := 0x2050
/-- COMMIT_PEND (R78). -/
def oCommitPend : Nat := 0x2058
/-- BEAT_CFG (R30). -/
def oBeatCfg : Nat := 0x3000
/-- BEAT_NOW (R31). -/
def oBeatNow : Nat := 0x3008
/-- BEAT_SYNC (R31). -/
def oBeatSync : Nat := 0x3010
/-- GREY_STAT (R36). -/
def oGreyStat : Nat := 0x3018
/-- PROFILE_SHARES (R33). -/
def oProfileShares : Nat := 0x3040
/-- PROFILE_WORK (R37). -/
def oProfileWork : Nat := 0x3048
/-- PROFILE_DEADLINES (R39). -/
def oProfileDeadlines : Nat := 0x3050
/-- PROFILE_SNAP (R39). -/
def oProfileSnap : Nat := 0x3058
/-- ADMIT_REPORT (R51), n = 4. -/
def oAdmitReport (k : Nat) : Nat := 0x3080 + 8 * k
/-- ADMIT_PWR (R44). -/
def oAdmitPwr : Nat := 0x30C0
/-- LAYOUT_ADDR (R287). -/
def oLayoutAddr : Nat := 0x3100
/-- LAYOUT_LEN (R287). -/
def oLayoutLen : Nat := 0x3108
/-- CYAN_BASE (R281). -/
def oCyanBase : Nat := 0x3110
/-- CYAN_GEOM (R281). -/
def oCyanGeom : Nat := 0x3118
/-- CYAN_STATA (R284). -/
def oCyanStata : Nat := 0x3128
/-- CYAN_STATB (R284). -/
def oCyanStatb : Nat := 0x3130
/-- LAYOUT_CHECK (R287). -/
def oLayoutCheck : Nat := 0x3138
/-- STASH_REGION (R309). -/
def oStashRegion : Nat := 0x3140
/-- STASH_CNT (R322). -/
def oStashCnt : Nat := 0x3148
/-- STASH_STAT (R322). -/
def oStashStat : Nat := 0x3150
/-- Q_CFG (R426), n = 4. -/
def oQCfg (k : Nat) : Nat := 0x4000 + 32 * k
/-- Q_DOORBELL (R426), n = 4. -/
def oQDoorbell (k : Nat) : Nat := 0x4008 + 32 * k
/-- Q_DONE_SEQ (R426), n = 4. -/
def oQDoneSeq (k : Nat) : Nat := 0x4010 + 32 * k
/-- Q_STAT (R426), n = 4. -/
def oQStat (k : Nat) : Nat := 0x4018 + 32 * k
/-- FAB_CFG (R139). -/
def oFabCfg : Nat := 0x5000
/-- FAB_SEED (R140). -/
def oFabSeed : Nat := 0x5008
/-- KEY_SEED (R140). -/
def oKeySeed : Nat := 0x5010
/-- FAB_STAT (R141). -/
def oFabStat : Nat := 0x5018
/-- FAB_ERR (R142). -/
def oFabErr : Nat := 0x5020
/-- FAB_ERR_BEAT (R142). -/
def oFabErrBeat : Nat := 0x5028
/-- FAB_SWAP (R143). -/
def oFabSwap : Nat := 0x5030
/-- FAB_RETIRED (R143), n = 5. -/
def oFabRetired (k : Nat) : Nat := 0x5040 + 8 * k
/-- TVD_ADDR (R159). -/
def oTvdAddr : Nat := 0x5080
/-- TVD_LEN (R159). -/
def oTvdLen : Nat := 0x5088
/-- TVD_STAT (R166). -/
def oTvdStat : Nat := 0x5090
/-- TVD_BUILD (R166). -/
def oTvdBuild : Nat := 0x5098
/-- TVD_CHECK (R162). -/
def oTvdCheck : Nat := 0x50A0
/-- MX_CFG (R225). -/
def oMxCfg : Nat := 0x6000
/-- MX_STAT (R226). -/
def oMxStat : Nat := 0x6008
/-- MX_ERR (R227). -/
def oMxErr : Nat := 0x6010
/-- MX_ERR_BEAT (R227). -/
def oMxErrBeat : Nat := 0x6018
/-- MX_SWAP (R227). -/
def oMxSwap : Nat := 0x6020
/-- MX_RETIRED (R227), n = 3. -/
def oMxRetired (k : Nat) : Nat := 0x6028 + 8 * k
/-- MX_BUF_BASE (R228), n = 8. -/
def oMxBufBase (k : Nat) : Nat := 0x6080 + 16 * k
/-- MX_BUF_SIZE (R228), n = 8. -/
def oMxBufSize (k : Nat) : Nat := 0x6088 + 16 * k
/-- STRM_POOL (R249). -/
def oStrmPool : Nat := 0x7000
/-- STRM_WDOG (R250). -/
def oStrmWdog : Nat := 0x7008
/-- STRM_WDOG_BEAT (R250). -/
def oStrmWdogBeat : Nat := 0x7010
/-- STRM_STOPPED (R253). -/
def oStrmStopped : Nat := 0x7018
/-- STRM_PF (R251), n = 32. -/
def oStrmPf (k : Nat) : Nat := 0x7100 + 8 * k
/-- STRM_STAT (R252), n = 32. -/
def oStrmStat (k : Nat) : Nat := 0x7200 + 8 * k
/-- STRM_STOP_POS (R253), n = 32. -/
def oStrmStopPos (k : Nat) : Nat := 0x7300 + 16 * k
/-- STRM_STOP_PAGE (R253), n = 32. -/
def oStrmStopPage (k : Nat) : Nat := 0x7308 + 16 * k
/-- NUM_CFG (R106). -/
def oNumCfg : Nat := 0x8000
/-- NUM_STAT (R107). -/
def oNumStat : Nat := 0x8008
/-- NAN_RECORD (R192). -/
def oNanRecord : Nat := 0x8010
/-- NAN_TILE (R192). -/
def oNanTile : Nat := 0x8018
/-- NAN_OPA (R192). -/
def oNanOpa : Nat := 0x8020
/-- NAN_OPB (R192). -/
def oNanOpb : Nat := 0x8028
/-- NAN_OPC (R192). -/
def oNanOpc : Nat := 0x8030
/-- NAN_BEAT (R192). -/
def oNanBeat : Nat := 0x8038
/-- NAN_POLICY (R193). -/
def oNanPolicy : Nat := 0x8040
/-- HELD_STAT (R193). -/
def oHeldStat : Nat := 0x8048
/-- LAZY_DECAY (R187), n = 15. -/
def oLazyDecay (k : Nat) : Nat := 0x80C0 + 8 * k
/-- GRAD_CFG (R277). -/
def oGradCfg : Nat := 0x8200
/-- GRAD_CLIP (R277). -/
def oGradClip : Nat := 0x8208
/-- NORM_STAT (R278). -/
def oNormStat : Nat := 0x8210
/-- NORM_VAL (R278). -/
def oNormVal : Nat := 0x8218
/-- NORM_KAPPA (R278). -/
def oNormKappa : Nat := 0x8220
/-- GRAD_DROPS (R279). -/
def oGradDrops : Nat := 0x8228
/-- GRAD_LATE (R279). -/
def oGradLate : Nat := 0x8230
/-- PL_STAT (R412), n = 8. -/
def oPlStat (k : Nat) : Nat := 0x9000 + 8 * k
/-- PL_CNT (R412), n = 8. -/
def oPlCnt (k : Nat) : Nat := 0x9040 + 8 * k
/-- PL_CFG (R412). -/
def oPlCfg : Nat := 0x9080
/-- MC_CFG (R305). -/
def oMcCfg : Nat := 0x9400
/-- MC_STAT (R305). -/
def oMcStat : Nat := 0x9408
/-- MC_DETACH (R305). -/
def oMcDetach : Nat := 0x9410
/-- TIER_MAP (R350). -/
def oTierMap : Nat := 0xA000
/-- TIER_CFG (R350). -/
def oTierCfg : Nat := 0xA008
/-- FLASH_CFG (R351). -/
def oFlashCfg : Nat := 0xA010
/-- FLASH_GEOM (R351). -/
def oFlashGeom : Nat := 0xA018
/-- TIER_STAT (R352). -/
def oTierStat : Nat := 0xA020
/-- TIER_COUNT (R352). -/
def oTierCount : Nat := 0xA028
/-- FLASH_STAT (R352). -/
def oFlashStat : Nat := 0xA030
/-- FLASH_WEAR (R352). -/
def oFlashWear : Nat := 0xA038
/-- CRIMSON_LOG (R353). -/
def oCrimsonLog : Nat := 0xA040
/-- CRIMSON_BEAT (R353). -/
def oCrimsonBeat : Nat := 0xA048
/-- FAULT_RECORD (R365). -/
def oFaultRecord : Nat := 0xB000
/-- FAULT_BEAT (R365). -/
def oFaultBeat : Nat := 0xB008
/-- FAULT_WHERE (R365). -/
def oFaultWhere : Nat := 0xB010
/-- FAULT_LOG (R365). -/
def oFaultLog : Nat := 0xB018
/-- CHECK_STAT (R361). -/
def oCheckStat : Nat := 0xB020
/-- CHECK_LAST (R361). -/
def oCheckLast : Nat := 0xB028
/-- SRAM_CFG (R363). -/
def oSramCfg : Nat := 0xB030
/-- SRAM_STAT (R363). -/
def oSramStat : Nat := 0xB038
/-- SCRUB_CFG (R361). -/
def oScrubCfg : Nat := 0xB040
/-- SCRUB_STAT (R361). -/
def oScrubStat : Nat := 0xB048
/-- SNAP_CFG (R370). -/
def oSnapCfg : Nat := 0xB050
/-- SNAP_STAT (R375). -/
def oSnapStat : Nat := 0xB058
/-- SNAP_OPEN (R375). -/
def oSnapOpen : Nat := 0xB060
/-- RESTORE_STAT (R384). -/
def oRestoreStat : Nat := 0xB068
/-- AMBER_STAT (R369). -/
def oAmberStat : Nat := 0xB070
/-- AMBER_BEAT (R369). -/
def oAmberBeat : Nat := 0xB078
/-- CH_FAILED (R361). -/
def oChFailed : Nat := 0xB080
/-- SNAP_PREV (R376). -/
def oSnapPrev : Nat := 0xB088
/-- LIFE (R385), n = 8. -/
def oLife (k : Nat) : Nat := 0xB100 + 8 * k
/-- POWER_BUDGET (R435). -/
def oPowerBudget : Nat := 0xC000
/-- PWR_CFG (R435). -/
def oPwrCfg : Nat := 0xC008
/-- PWR_STAT (R436). -/
def oPwrStat : Nat := 0xC010
/-- TEMP_STAT (R440). -/
def oTempStat : Nat := 0xC018
/-- CLK_CFG (R430). -/
def oClkCfg : Nat := 0xC020
/-- RESET_STAT (R445). -/
def oResetStat : Nat := 0xC028
/-- IMAGE_ID (R445). -/
def oImageId : Nat := 0xC030
/-- SV_CTL (R394). -/
def oSvCtl : Nat := 0xD000
/-- SV_IMG_WR (R394). -/
def oSvImgWr : Nat := 0xD008
/-- SV_IMG_STAT (R394). -/
def oSvImgStat : Nat := 0xD010
/-- SV_REFUSED (R394). -/
def oSvRefused : Nat := 0xD018
/-- SV_MIR (R467), n = 32. -/
def oSvMir (k : Nat) : Nat := 0xD100 + 8 * k
/-- DBG_SEQ (R469). -/
def oDbgSeq : Nat := 0xE000
/-- DBG_SHARE (R469). -/
def oDbgShare : Nat := 0xE008

/-- Offset o is one of n registers that begin at base, step apart. -/
def inFam (o base step n : Nat) : Bool := base ≤ o && o < base + step * n && (o - base) % step = 0

/-- The ST bits of the register at an offset (R13, R458). -/
def stMask (o : Nat) : Word :=
  if o = 0x2040 then 0xFFFFFFFFFF0002#64  -- COMMIT_GROUP
  else if o = 0x3000 then 0x7F#64  -- BEAT_CFG
  else if o = 0x3040 then 0xFFFFFFFFFFFF#64  -- PROFILE_SHARES
  else if o = 0x3048 then 0xFFFFFFFFFF0301FF#64  -- PROFILE_WORK
  else if o = 0x3050 then 0xFFFFFFFFFFFFFFF#64  -- PROFILE_DEADLINES
  else if o = 0x3058 then 0xFFFFFFFFFFF1FFFF#64  -- PROFILE_SNAP
  else if o = 0x30C0 then 0xFFFFFFFF#64  -- ADMIT_PWR
  else if o = 0x3100 then 0xFFFFFFFFFFF8#64  -- LAYOUT_ADDR
  else if o = 0x3108 then 0x1FFFFF#64  -- LAYOUT_LEN
  else if o = 0x3110 then 0xFFFFFFE00000#64  -- CYAN_BASE
  else if o = 0x3118 then 0xFFFFFFE0FFFF#64  -- CYAN_GEOM
  else if o = 0x3140 then 0xFFFFFFE0FFFF#64  -- STASH_REGION
  else if o = 0x5000 then 0xFF01FFFF#64  -- FAB_CFG
  else if o = 0x5008 then 0xFFFFFFFFFFFFFFFF#64  -- FAB_SEED
  else if o = 0x5010 then 0xFFFFFFFFFFFFFFFF#64  -- KEY_SEED
  else if o = 0x5080 then 0xFFFFFFFFFFF8#64  -- TVD_ADDR
  else if o = 0x5088 then 0x1FFFF#64  -- TVD_LEN
  else if o = 0x6000 then 0xFF01FFFF#64  -- MX_CFG
  else if inFam o 0x6080 16 8 then 0xFFFFFFFFFF00#64  -- MX_BUF_BASE
  else if inFam o 0x6088 16 8 then 0xFFFF#64  -- MX_BUF_SIZE
  else if o = 0x8000 then 0xC3#64  -- NUM_CFG
  else if o = 0x8040 then 0x1#64  -- NAN_POLICY
  else if inFam o 0x80C0 8 15 then 0x3FFFFFFFF#64  -- LAZY_DECAY
  else if o = 0x8200 then 0x13FFFFFFFF#64  -- GRAD_CFG
  else if o = 0x8208 then 0x3FFFFFFFFFF#64  -- GRAD_CLIP
  else if o = 0x9080 then 0xFF#64  -- PL_CFG
  else if o = 0x9400 then 0xF#64  -- MC_CFG
  else if o = 0xA000 then 0x1FFFF007FFFFF#64  -- TIER_MAP
  else if o = 0xA008 then 0xFFFFFF0000000001#64  -- TIER_CFG
  else if o = 0xA010 then 0xFFFFFFFFFFFFFFFF#64  -- FLASH_CFG
  else if o = 0xB030 then 0xFF01FFFF#64  -- SRAM_CFG
  else if o = 0xB040 then 0xFFFFFFFF0001#64  -- SCRUB_CFG
  else if o = 0xB050 then 0xFFE0FFFFFFFF0000#64  -- SNAP_CFG
  else if o = 0xC008 then 0x3FF03FFFF000003#64  -- PWR_CFG
  else 0#64

/-- The RW bits of the register at an offset (R13). -/
def rwMask (o : Nat) : Word :=
  if o = 0x1000 then 0xFFFFFFFF00000001#64  -- CTL
  else if o = 0x2000 then 0xC0#64  -- STAGE_CTL
  else if o = 0x2010 then 0xFFFFFFFFFFFF#64  -- STAGE_APPLY_BEAT
  else if inFam o 0x4000 32 4 then 0xFFFFFFFF00001F01#64  -- Q_CFG
  else if inFam o 0x7100 8 32 then 0x1001F#64  -- STRM_PF
  else 0#64

/-- The W1C bits of the register at an offset (R13). -/
def w1cMask (o : Nat) : Word :=
  if o = 0x1008 then 0x200000000000000#64  -- STAT
  else if o = 0x2008 then 0x80#64  -- STAGE_RESULT
  else if o = 0x3010 then 0x300000000#64  -- BEAT_SYNC
  else if o = 0x3018 then 0xF#64  -- GREY_STAT
  else if inFam o 0x4018 32 4 then 0xC#64  -- Q_STAT
  else if o = 0x5018 then 0x3#64  -- FAB_STAT
  else if o = 0x5090 then 0x1#64  -- TVD_STAT
  else if o = 0x6008 then 0x3#64  -- MX_STAT
  else if o = 0x7008 then 0x8000000000000000#64  -- STRM_WDOG
  else if o = 0x8008 then 0x1F#64  -- NUM_STAT
  else if o = 0x8010 then 0x8000000000000000#64  -- NAN_RECORD
  else if o = 0xA020 then 0x3#64  -- TIER_STAT
  else if o = 0xA030 then 0x2#64  -- FLASH_STAT
  else if o = 0xB000 then 0x8000000000000000#64  -- FAULT_RECORD
  else if o = 0xB028 then 0x8000000000000000#64  -- CHECK_LAST
  else if o = 0xB038 then 0x3#64  -- SRAM_STAT
  else if o = 0xB060 then 0x2#64  -- SNAP_OPEN
  else if o = 0xB068 then 0x40000000#64  -- RESTORE_STAT
  else if o = 0xB070 then 0x5#64  -- AMBER_STAT
  else if o = 0xC010 then 0x3#64  -- PWR_STAT
  else 0#64

/-- A staged register has at least one ST field (R458). -/
def isStaged (o : Nat) : Bool := stMask o != 0#64

/-- Part 0 of the Reset column: the registers whose reset value is not 0, by rising offset. -/
def resetPart0 : FMap Word :=
  [(0x0, 0x4B525A4501000000#64),
   (0x8, 0x300000001#64),
   (0x10, 0x42000804288100#64),
   (0x18, 0x80201040021440#64),
   (0x20, 0x800818082040#64),
   (0x28, 0x10001FFFFFF0440#64),
   (0x2040, 0x4000000#64),
   (0x3000, 0x10010#64),
   (0x3040, 0x1000000000F0#64),
   (0x3048, 0x20110#64),
   (0x30C0, 0x40405838#64),
   (0x3128, 0x100#64),
   (0x4000, 0xC00#64),
   (0x4020, 0xC00#64),
   (0x4040, 0xC00#64),
   (0x4060, 0xC00#64)]

/-- Part 1 of the Reset column: the registers whose reset value is not 0, by rising offset. -/
def resetPart1 : FMap Word :=
  [(0x5000, 0x2000400#64),
   (0x5008, 0x1#64),
   (0x5018, 0x8100000#64),
   (0x6000, 0x2000400#64),
   (0x6008, 0x4080000#64),
   (0x7100, 0x4#64),
   (0x7108, 0x4#64),
   (0x7110, 0x4#64),
   (0x7118, 0x4#64),
   (0x7120, 0x4#64),
   (0x7128, 0x4#64),
   (0x7130, 0x4#64),
   (0x7138, 0x4#64),
   (0x7140, 0x4#64),
   (0x7148, 0x4#64),
   (0x7150, 0x4#64)]

/-- Part 2 of the Reset column: the registers whose reset value is not 0, by rising offset. -/
def resetPart2 : FMap Word :=
  [(0x7158, 0x4#64),
   (0x7160, 0x4#64),
   (0x7168, 0x4#64),
   (0x7170, 0x4#64),
   (0x7178, 0x4#64),
   (0x7180, 0x4#64),
   (0x7188, 0x4#64),
   (0x7190, 0x4#64),
   (0x7198, 0x4#64),
   (0x71A0, 0x4#64),
   (0x71A8, 0x4#64),
   (0x71B0, 0x4#64),
   (0x71B8, 0x4#64),
   (0x71C0, 0x4#64),
   (0x71C8, 0x4#64),
   (0x71D0, 0x4#64)]

/-- Part 3 of the Reset column: the registers whose reset value is not 0, by rising offset. -/
def resetPart3 : FMap Word :=
  [(0x71D8, 0x4#64),
   (0x71E0, 0x4#64),
   (0x71E8, 0x4#64),
   (0x71F0, 0x4#64),
   (0x71F8, 0x4#64),
   (0x80C0, 0xFF800000#64),
   (0x80C8, 0xFF800000#64),
   (0x80D0, 0xFF800000#64),
   (0x80D8, 0xFF800000#64),
   (0x80E0, 0xFF800000#64),
   (0x80E8, 0xFF800000#64),
   (0x80F0, 0xFF800000#64),
   (0x80F8, 0xFF800000#64),
   (0x8100, 0xFF800000#64),
   (0x8108, 0xFF800000#64),
   (0x8110, 0xFF800000#64)]

/-- Part 4 of the Reset column: the registers whose reset value is not 0, by rising offset. -/
def resetPart4 : FMap Word :=
  [(0x8118, 0xFF800000#64),
   (0x8120, 0xFF800000#64),
   (0x8128, 0xFF800000#64),
   (0x8130, 0xFF800000#64),
   (0x8200, 0xFF800000#64),
   (0x8208, 0x5000000000#64),
   (0x9000, 0xF000#64),
   (0x9008, 0xF000#64),
   (0x9010, 0xF000#64),
   (0x9018, 0xF000#64),
   (0x9020, 0xF000#64),
   (0x9028, 0xF000#64),
   (0x9030, 0xF000#64),
   (0x9038, 0xF000#64),
   (0x9400, 0x4#64),
   (0xA000, 0x1000000000000#64)]

/-- Part 5 of the Reset column: the registers whose reset value is not 0, by rising offset. -/
def resetPart5 : FMap Word :=
  [(0xA008, 0x40200000000000#64),
   (0xA010, 0x1489208000643010#64),
   (0xA020, 0x8000000000000000#64),
   (0xB000, 0xF000000000#64),
   (0xB030, 0x10000400#64),
   (0xB038, 0x2000000#64),
   (0xB040, 0x400000001#64),
   (0xC000, 0x110#64),
   (0xC008, 0x2CC02A410000000#64),
   (0xC010, 0x1008010080000000#64),
   (0xC020, 0x578#64)]

/-- The Reset column of R470 to R482, for ii = f = c = 0. -/
def resetRegs : FMap Word := resetPart0 ++ resetPart1 ++ resetPart2 ++ resetPart3 ++ resetPart4 ++ resetPart5

end Sys2Proof.Machine
end

