-- ==== Sys2Proof/Machine/Matrix.lean ====
section
/-! DEFINITION. The arithmetic of the matrix unit (R197 to R203, R211 to R216): products, the element stage, and what each
program KIND computes over one block. Matrices are lists of rows in KX. -/
namespace Sys2Proof.Machine

/-- A matrix, row by row. -/
abbrev Mat := List (List KX)

/-- Element (i, j). -/
def Mat.at (a : Mat) (i j : Nat) : KX := nth kxZero (nth [] a i) j

/-- The transpose of a matrix of n columns. -/
def transpose (n : Nat) (a : Mat) : Mat := (List.range n).map (fun j => a.map (fun r => nth kxZero r j))

/-- An exact value rounded to 11 significant bits (R200). -/
def valRound11 : KxVal → KxVal
  | .fin neg m e => let (q, f) := roundSig 11 m e false; .fin neg q f
  | v => v

/-- The exact difference of two values (R200). -/
def valSub : KxVal → KxVal → KxVal
  | .nan, _ => .nan
  | _, .nan => .nan
  | a, .zero _ => a
  | .zero _, .fin t n f => .fin (!t) n f
  | .fin s m e, .fin t n f =>
    let g := min e f
    let v := alignInt s m e g - alignInt t n f g
    if v = 0 then .zero false else .fin (v < 0) v.natAbs g

/-- A part whose magnitude falls below 2^−510 is zero (R200). -/
def valPart : KxVal → KxVal
  | .fin neg m e => if (Nat.log2 m : Int) + e < -510 then .zero neg else .fin neg m e
  | v => v

/-- Part i of a wide element (R200): hi, lo, lo2, as exact values. -/
def mxPart (x : KX) (i : Nat) : KxVal :=
  let v := kxVal x
  let hi := valRound11 v
  let r1 := valSub v hi
  let lo := valRound11 r1
  valPart (if i = 0 then hi else if i = 1 then lo else valSub r1 lo)

/-- The part of an operand that enters a term: a narrow element enters whole. -/
def mxOperand (wide : Bool) (x : KX) (i : Nat) : KxVal := if wide then mxPart x i else kxVal x

/-- The product of two factors in KX (R202). -/
def mxProd : KxVal → KxVal → KX × Bool
  | .nan, _ => (kxNaN, false)
  | _, .nan => (kxNaN, false)
  | .zero s, .zero t => (kxZeroS (s != t), false)
  | .zero s, .fin t _ _ => (kxZeroS (s != t), false)
  | .fin s _ _, .zero t => (kxZeroS (s != t), false)
  | .fin s m e, .fin t n f => kxRound (s != t) (m * n) (e + f) false

/-- The terms of R201 and their order (R202): pairs with i + j < P, descending i + j, then ascending i. -/
def mxTerms (p : Nat) (wa wb : Bool) : List (Nat × Nat) :=
  ((List.range p).reverse).flatMap (fun s =>
    ((List.range (s + 1)).map (fun i => (i, s - i))).filter (fun (i, j) => (wa || i = 0) && (wb || j = 0)))

/-- A KX sum with its saturation carried along. -/
def addO (x y : KX × Bool) : KX × Bool := let (v, o) := kxAdd x.1 y.1; (v, o || x.2 || y.2)

/-- One level of a tree of sums that carry saturation. -/
def treeLevelO : List (KX × Bool) → List (KX × Bool)
  | a :: b :: t => addO a b :: treeLevelO t
  | l => l

/-- A tree of n levels. -/
def treeFoldO : Nat → List (KX × Bool) → KX × Bool
  | 0, l => nth (kxZero, false) l 0
  | n + 1, l => treeFoldO n (treeLevelO l)

/-- The chunk sums of one term in ascending order (R202): 32 products each, padded with +0. n bounds the chunks. -/
def mxChunks : Nat → List (KX × Bool) → List (KX × Bool)
  | 0, _ => []
  | _ + 1, [] => []
  | n + 1, ps =>
    let c := ps.take 32
    treeFoldO 5 (c ++ List.replicate (32 - c.length) (kxZero, false)) :: mxChunks n (ps.drop 32)

/-- One output element (R202): the accumulator takes every chunk of every term in order. -/
def mxDot (p : Nat) (wa wb : Bool) (row col : List KX) (init : KX) : KX × Bool :=
  (mxTerms p wa wb).foldl (fun acc (i, j) =>
    let ps := List.zipWith (fun a b => mxProd (mxOperand wa a i) (mxOperand wb b j)) row col
    (mxChunks ps.length ps).foldl addO acc) (init, false)

/-- A product A × B with B given by its columns; init gives the accumulators' first values (R202). -/
def mxMul (p : Nat) (wa wb : Bool) (a bt : Mat) (init : Nat → Nat → KX) : Mat × Bool :=
  let rows := (List.range a.length).map (fun i =>
    (List.range bt.length).map (fun j => mxDot p wa wb (nth [] a i) (nth [] bt j) (init i j)))
  (rows.map (fun r => r.map (·.1)), rows.any (fun r => r.any (·.2)))

/-- The accumulator of an output element before the chunk of its first term that holds K-step k (R202, R221). -/
def mxAccAt (p : Nat) (wa wb : Bool) (row col : List KX) (k : Nat) : KX :=
  match mxTerms p wa wb with
  | [] => kxZero
  | (i, j) :: _ =>
    let ps := (List.zipWith (fun a b => mxProd (mxOperand wa a i) (mxOperand wb b j)) row col).take (k / 32 * 32)
    ((mxChunks ps.length ps).foldl addO (kxZero, false)).1

/-- The zero first value of the accumulators. -/
def mxZero (_ _ : Nat) : KX := kxZero

/-- An element-stage step on every element (R203). -/
def mxMap (f : KX → KX × Bool) (a : Mat) : Mat × Bool :=
  let r := a.map (fun row => row.map f)
  (r.map (fun row => row.map (·.1)), r.any (fun row => row.any (·.2)))

/-- An element-stage step on pairs of elements (R203). -/
def mxMap2 (f : KX → KX → KX × Bool) (a b : Mat) : Mat × Bool :=
  let r := List.zipWith (fun x y => List.zipWith f x y) a b
  (r.map (fun row => row.map (·.1)), r.any (fun row => row.any (·.2)))

/-- Levels of the tree over n elements padded to a power of two. -/
def treeDepth (n : Nat) : Nat := if n ≤ 1 then 0 else Nat.log2 (n - 1) + 1

/-- Sum of squares over elements in position order (R203). -/
def mxSsq (xs : List KX) : KX × Bool :=
  let d := treeDepth xs.length
  treeFoldO d (xs.map (fun x => kxMul x x) ++ List.replicate (2 ^ d - xs.length) (kxZero, false))

/-- The elements of rows r0 on in position order (R172): row by row, or column by column within groups of h rows. -/
def flattenPos (colGroups : Bool) (h : Nat) (a : Mat) : List KX :=
  if !colGroups then a.flatten
  else
    let cols := (nth [] a 0).length
    (List.range (cdiv a.length h)).flatMap (fun g =>
      (List.range cols).flatMap (fun j => ((a.drop (g * h)).take h).map (fun r => nth kxZero r j)))

/-- 0.5 and 1.5 in KX. -/
def kxHalf : KX := (kxRound false 1 (-1) false).1
def kxThreeHalves : KX := (kxRound false 3 (-1) false).1

/-- The identity matrix. -/
def mxIdent (n : Nat) : Mat := (List.range n).map (fun i => (List.range n).map (fun j => if i = j then kxOne else kxZero))

/-- What a KIND computes over one block: the output, the new state where the KIND writes one, saturation, and the operands of the
element-stage results that were NaN from operands without NaN (R220, record 5). -/
structure MxRes where
  out   : Mat
  state : Option Mat
  ovf   : Bool
  nans  : List (KX × KX)
  deriving DecidableEq, Repr

/-- The operands of a division whose result is NaN though they are not. -/
def divNaNs (a : Mat) (d : KX) : List (KX × KX) :=
  (a.flatten.filter (fun x => !kxIsNaN x && !kxIsNaN d && kxIsNaN (kxDiv x d).1)).map (fun x => (x, d))

/-- The input matrix X (R211): fma(M1, In1, M0 × In0). -/
def mxInput (m0 m1 : KX) (in0 in1 : Mat) : Mat × Bool :=
  mxMap2 (fun x y => let (p, o) := kxMul m0 x; let (r, o2) := kxFma m1 y p; (r, o || o2)) in0 in1

/-- The iteration of KIND 0x01 (R212). -/
def nsIter (p n m : Nat) (a b c : KX) : Nat → Mat × Bool → Mat × Bool
  | 0, r => r
  | k + 1, (x, o) =>
    let (g, o1) := mxMul p true true x x mxZero
    let (g2, o2) := mxMul p true true g (transpose n g) mxZero
    let (bm, o3) := mxMap2 (fun u v =>
      let (t, oa) := kxMul b u; let (w, ob) := kxMul c v; let (r, oc) := kxAdd t w; (r, oa || ob || oc)) g g2
    let (ax, o4) := mxMap (kxMul a) x
    let (y, o5) := mxMul p true true bm (transpose m x) (fun i j => Mat.at ax i j)
    nsIter p n m a b c k (y, o || o1 || o2 || o3 || o4 || o5)

/-- KIND 0x01 on one block (R212): its shorter side gives the rows; of a square block `tall`, BR > BC, decides. -/
def mxKind1 (p iter : Nat) (tall : Bool) (a b c eps : KX) (xb : Mat) (inOrder : List KX) : MxRes :=
  let rows := xb.length
  let cols := (nth [] xb 0).length
  let tr := cols < rows || (rows = cols && tall)
  let (ss, o1) := mxSsq inOrder
  let (t, o2) := kxAdd (kxSqrt ss).1 eps
  let (x0, o3) := mxMap (fun x => kxDiv x t) xb
  let x0 := if tr then transpose cols x0 else x0
  let (n, m) := if tr then (cols, rows) else (rows, cols)
  let (y, o) := nsIter p n m a b c iter (x0, o1 || o2 || o3)
  ⟨if tr then transpose rows y else y, none, o, divNaNs xb t⟩

/-- The iteration of KIND 0x02 with REFRESH (R213). -/
def refreshIter (p r : Nat) : Nat → Mat × Bool → Mat × Bool
  | 0, x => x
  | k + 1, (y, o) =>
    let yt := transpose r y
    let (g, o1) := mxMul p true true yt yt mxZero
    let (w, o2) := mxMul p true true y (transpose r g) mxZero
    let (z, o3) := mxMap2 (fun u v =>
      let (t, oa) := kxMul kxThreeHalves u; let (h, ob) := kxMul kxHalf v; let (q, oc) := kxSub t h; (q, oa || ob || oc)) y w
    refreshIter p r k (z, o || o1 || o2 || o3)

/-- KIND 0x02 (R213): the projected matrix, and with REFRESH the new projector. -/
def mxKind2 (p iter r : Nat) (eps : KX) (refresh : Bool) (x pj : Mat) : MxRes :=
  let cols := (nth [] x 0).length
  let xt := transpose cols x
  let pjt := transpose r pj
  let (out, o1) := mxMul p false true pjt xt mxZero
  if !refresh then ⟨out, none, o1, []⟩
  else
    let (z, o2) := mxMul p true false xt pjt mxZero
    let (y, o3) := mxMul p true true x (transpose r z) mxZero
    let (ss, o4) := mxSsq y.flatten
    let (t, o5) := kxAdd (kxSqrt ss).1 eps
    let (y0, o6) := mxMap (fun v => kxDiv v t) y
    let (yn, o7) := refreshIter p r iter (y0, false)
    ⟨out, some yn, o1 || o2 || o3 || o4 || o5 || o6 || o7, divNaNs y t⟩

/-- KIND 0x03 (R214): Pj × N. -/
def mxKind3 (p : Nat) (wideN : Bool) (pj n : Mat) : MxRes :=
  let cols := (nth [] n 0).length
  let (out, o) := mxMul p false wideN pj (transpose cols n) mxZero
  ⟨out, none, o, []⟩

/-- The iteration of KIND 0x04 (R215) on (Y, Z). -/
def rootIter (p n : Nat) : Nat → Mat × Mat × Bool → Mat × Mat × Bool
  | 0, r => r
  | k + 1, (y, z, o) =>
    let (zy, o1) := mxMul p true true z (transpose n y) mxZero
    let (u, o2) := mxMap2 (fun i v =>
      let (t, oa) := kxMul kxThreeHalves i; let (h, ob) := kxMul kxHalf v; let (q, oc) := kxSub t h; (q, oa || ob || oc))
      (mxIdent n) zy
    let (y', o3) := mxMul p true true y (transpose n u) mxZero
    let (z', o4) := mxMul p true true u (transpose n z) mxZero
    rootIter p n k (y', z', o || o1 || o2 || o3 || o4)

/-- KIND 0x04 on one row block (R215): the output and the new statistic. -/
def mxKind4 (p iter : Nat) (beta eps : KX) (xb st : Mat) : MxRes :=
  let n := xb.length
  let cols := (nth [] xb 0).length
  let (bs, o1) := mxMap (kxMul beta) st
  let (s', o2) := mxMul p true true xb xb (fun i j => Mat.at bs i j)
  let (ei, o3) := mxMap (kxMul eps) (mxIdent n)
  let (e, o4) := mxMap2 kxAdd s' ei
  let (ss, o5) := mxSsq e.flatten
  let (t, _) := kxSqrt ss
  let (y0, o6) := mxMap (fun v => kxDiv v t) e
  let (_, z, o7) := rootIter p n iter (y0, mxIdent n, false)
  let (rt, o8) := kxRsqrt t
  let (zs, o9) := mxMap (fun v => kxMul v rt) z
  let (out, o10) := mxMul p true true zs (transpose cols xb) mxZero
  ⟨out, some s', o1 || o2 || o3 || o4 || o5 || o6 || o7 || o8 || o9 || o10, divNaNs e t⟩

/-- The sums of a quantisation probe (R216): D = A × Qᵀ − A × Wᵀ and Y_r = A × Wᵀ. -/
structure ProbeRes where
  errSsq : KX
  refSsq : KX
  errMax : KX
  refMax : KX
  dNans  : Nat
  ovf    : Bool
  deriving DecidableEq, Repr

/-- KIND 0x05 (R216). DESIGN CHOICE (assumption log 34): both products are T₀ as R216 says, also for a W in K32A, whose whole significand is
multiplied as a narrow operand; no rule splits it there. -/
def mxKind5 (a w q : Mat) : ProbeRes :=
  let (yq, o1) := mxMul 1 false false a q mxZero
  let (yr, o2) := mxMul 1 false false a w mxZero
  let (d, o3) := mxMap2 kxSub yq yr
  let (es, o4) := mxSsq d.flatten
  let (rs, o5) := mxSsq yr.flatten
  ⟨es, rs, maxMag d.flatten, maxMag yr.flatten, (d.flatten.filter kxIsNaN).length, o1 || o2 || o3 || o4 || o5⟩

/-- A KX parameter of a program (R150, R210): exponent 1023 is only the canonical NaN. -/
def kxParamOk (w : Word) : Bool :=
  let c : KX := w.setWidth 34
  kxExp c != 1023 || c = kxNaN

/-- The parameters of a matrix entry (R210); the first bad word's number (1 to 3) with its reason: 0x15 a reserved bit, 0x14 a field out
of range, 0x07 a KX field that is no valid code (R150, R163). -/
def mxParamErr (m : MxProg) : Option (Nat × Nat) :=
  let outOk := fun w => fld w 63 60 = 1 || fld w 63 60 = 2
  let epsOk := fun w => 1 ≤ fld w 63 56 && fld w 63 56 ≤ 126
  let chk := fun (n : Nat) (w allowed : Word) (ok kx : Bool) =>
    if w &&& ~~~allowed != 0#64 then some (n, 0x15) else if !ok then some (n, 0x14) else if kx && !kxParamOk w then some (n, 0x07) else none
  match m.kind with
  | 1 =>
    (chk 1 m.p0 0xF0FF0003FFFFFFFF#64 (outOk m.p0) true).orElse fun _ =>
    (chk 2 m.p1 0xFF000003FFFFFFFF#64 (epsOk m.p1) true).orElse fun _ =>
    chk 3 m.p2 0x00000003FFFFFFFF#64 true true
  | 2 =>
    (chk 1 m.p0 0xF000FFFF00000000#64 (outOk m.p0 && 1 ≤ fld m.p0 47 32 && fld m.p0 47 32 ≤ 512) false).orElse fun _ =>
    (chk 2 m.p1 0xFF00000000000000#64 (epsOk m.p1) false).orElse fun _ => chk 3 m.p2 0#64 true false
  | 3 =>
    (chk 1 m.p0 0xF000000000000000#64 (outOk m.p0) false).orElse fun _ =>
    (chk 2 m.p1 0#64 true false).orElse fun _ => chk 3 m.p2 0#64 true false
  | 4 =>
    (chk 1 m.p0 0xFF000003FFFFFFFF#64 (outOk m.p0 && 6 ≤ fld m.p0 59 56 && fld m.p0 59 56 ≤ 9) true).orElse fun _ =>
    (chk 2 m.p1 0x00000003FFFFFFFF#64 true true).orElse fun _ => chk 3 m.p2 0#64 true false
  | _ =>
    let f := fld m.p0 63 60
    let b := fld m.p0 59 57
    let ok := 3 ≤ f && f ≤ 7 && b ≤ 6 && (match fmtOf f with | some g => g.blkOk (b != 0) | none => false)
    (chk 1 m.p0 0xFF00000000000000#64 ok false).orElse fun _ =>
    (chk 2 m.p1 0#64 true false).orElse fun _ => chk 3 m.p2 0#64 true false

/-- Panel cycles of a product (R217). -/
def mxG (rmax m n k t : Nat) : Nat := 64 + t * cdiv m rmax * cdiv n 512 * roundUp k 32

/-- Element-stage cycles (R217). -/
def mxE (x : Nat) : Nat := cdiv x 512

/-- Term counts of R201. -/
def mxT1 (p : Nat) : Nat := p
def mxTw (p : Nat) : Nat := p * (p + 1) / 2

end Sys2Proof.Machine
end

