-- ==== Sys2Proof/Machine/TvdCheck.lean ====
section
/-! DEFINITION. CHECK of a .tvd file (R145 to R158, R160, R163, R494): the first violation in the order the rules give, or
the bit-stream. -/
namespace Sys2Proof.Machine

/-- A violation as TVD_CHECK records it (R162, R494). -/
structure TvdErr where
  section_ : Nat
  word     : Nat
  variant  : Nat
  reason   : Nat
  deriving DecidableEq, Repr

/-- The TVD_CHECK word of a violation (R162). -/
def TvdErr.toWord (e : TvdErr) : Word :=
  setFld (setFld (setFld (setFld 0#64 47 32 e.section_) 31 16 e.word) 15 8 e.variant) 7 0 e.reason

/-- The result code of a reason (R163). -/
def TvdErr.result (e : TvdErr) : Nat :=
  if e.reason = 0x13 then 0x13 else if e.reason = 0x17 ∨ e.reason = 0x19 then 0x16 else 0x15

/-- A violation when c holds. -/
def viol (c : Bool) (s w v r : Nat) : Option TvdErr := if c then some ⟨s, w, v, r⟩ else none

/-- The first violation of a list of checks. -/
def firstErr : List (Option TvdErr) → Option TvdErr
  | [] => none
  | some e :: _ => some e
  | none :: t => firstErr t

/-- Word i of a byte string. -/
def wordAt (bs : List Byte) (i : Nat) : Word := BitVec.ofNat 64 (leAt bs (8 * i) 8)

/-- The file header (R145, R160) in its order; len is TVD_LEN.LEN. -/
def checkHeader (bs : List Byte) (len : Nat) : Option TvdErr :=
  let h := fun o r c => viol c 0xFFFF o 0xFF r
  let flen := leAt bs 8 4
  firstErr
    [h 0 1 (leAt bs 0 4 != 0x31445654), h 4 1 (leAt bs 4 2 != 1),
     h 8 3 (flen % 8 != 0 || flen > 65536 || flen < 64 || flen != len),
     h 12 2 (leAt bs 12 4 != (crc32c ((bs.drop 16).take (flen - 16))).toNat),
     h 16 1 (leAt bs 16 2 != 3), h 18 1 (leAt bs 18 2 > 1),
     h 20 5 (leAt bs 20 2 != 40), h 22 5 (leAt bs 22 2 >= 512),
     h 32 0x15 (((bs.drop 32).take 32).any (· != 0#8))]

/-- The kind of a selector as an operand: true for a predicate (R115). xs gives the kind of each carried value. -/
def selIsPred (cells : List CellW) (xs : List (Option Bool)) (sel : Nat) : Bool :=
  if sel < 0x28 then (match cells[sel]? with
    | some c => opIsPred c.op
    | none => false)
  else if 0x50 ≤ sel ∧ sel < 0x58 then (nth none xs (sel - 0x50)).getD false
  else false

/-- An operand selector that cell n of a pass may use (R115, R150). -/
def selOk (cells : List CellW) (xs : List (Option Bool)) (pass nconst n sel : Nat) (wantPred : Bool) : Bool :=
  let exists_ :=
    if sel < 0x28 then sel < n && (match cells[sel]? with | some c => c.op != 0 | none => false)
    else if sel < 0x30 then pass = 1
    else if sel < 0x40 then sel - 0x30 < nconst
    else if sel < 0x50 then true
    else if sel < 0x58 then pass = 2 && (nth none xs (sel - 0x50)).isSome
    else sel ≤ 0x5A
  exists_ && selIsPred cells xs sel == wantPred

/-- The operand of an operation must be a predicate (R116): PAND, POR, PNOT, and a of SEL. -/
def wantsPred (op operand : Nat) : Bool := op = 0x25 || op = 0x26 || op = 0x27 || (op = 0x28 && operand = 0)

/-- An output port that a cell of another pass writes (R125). -/
def portTwice (others : List CellW) (c : CellW) : Bool :=
  opIsStore c.op && others.any (fun d => opIsStore d.op && d.site = c.site)

/-- The checks of one cell word (R153) in pass `pass`; w is the word, n the cell, base its payload word number. The cells
of the pass are given whole, `later` are those of the pass that follows it, xs are the carried kinds. -/
def checkCell (sec vnum nconst passes pass base : Nat) (xs : List (Option Bool)) (sites : List Word)
    (cells later : List CellW) (n : Nat) (w : Word) : Option TvdErr :=
  let c := decodeCell w
  let e := fun r (b : Bool) => viol b sec (base + n) vnum r
  let ar := opArity c.op
  let opnd := fun k sel => if k < ar then !selOk cells xs pass nconst n sel (wantsPred c.op k) else sel != 0x58
  let hasSite := opIsSite c.op || opIsRed c.op
  let before := cells.take n
  let sameSite := before.any (fun d => hasSite && d.site = c.site &&
    ((opIsStore c.op && opIsStore d.op) || (opIsRed c.op && opIsRed d.op) ||
     (opIsSite c.op && !opIsStore c.op && opIsSite d.op && !opIsStore d.op)))
  let consumer := fun (d : CellW) => d.op = 0x3C || (opIsSite d.op && bit (nth 0#64 sites (cellSite d)) 53)
  let carries := (cells.filter (·.carry)).length
  let badGuard := if c.gen then
      !(c.gcell < n) || !(match cells[c.gcell]? with | some g => opIsPred g.op | none => false) ||
      opIsSite c.op || opIsRed c.op || c.op = 0x3C || c.op = 0
    else c.gpol || c.gcell != 0
  let badCarry := (c.op = 0 && c.cidx != 0) || c.carry && (!(passes = 2 && pass = 1) || c.op = 0 || !(c.cidx < carries) ||
    before.any (fun d => d.carry && d.cidx = c.cidx))
  firstErr
    [e 9 (!opKnown c.op),
     e 0x15 ((w &&& 0x008080800000FFFF#64) != 0#64 || (c.keyed && c.op != 0x3C)),
     e 0xA (opnd 0 c.sa || opnd 1 c.sb || opnd 2 c.sc),
     e 0xB badGuard,
     e 0xE badCarry,
     e 0xC ((!hasSite && c.site != 0) || (opIsRed c.op && c.site > 3) || sameSite ||
       (consumer c && (before.filter consumer).length ≥ 4) || portTwice later c),
     e 0xD (nth 0 (cellTimes (cells.take (n + 1)) []) n > 1024)]

/-- The kinds of X0 to X7 (R133): the kind of the cell that carries each. -/
def carriedKinds (cells : List CellW) : List (Option Bool) :=
  (List.range 8).map (fun i => (cells.find? (fun c => c.carry && c.cidx = i)).map (fun c => opIsPred c.op))

/-- A site word against R152; used says whether a cell names the site. The reason, if it is refused. -/
def checkSite (s : Nat) (w : Word) (used : Bool) : Option Nat :=
  if fld w 63 60 = 0xF then (if w != 0xF000000000000000#64 || used then some 8 else none)
  else if (w &&& 0x000F000FFFFFFFFF#64) != 0#64 then some 0x15
  else match fmtOf (fld w 63 60) with
    | none => some 8
    | some f =>
      let blk := fld w 59 57
      let fixed := bit w 39
      let bad := !used || blk = 7 || fld w 55 54 ≥ 2 || !f.blkOk (blk != 0) ||
        (s < 8 && (w &&& 0x00F0FFF000000000#64) != 0#64) ||
        (bit w 53 && !f.canDither) || (bit w 52 && !bit w 53) ||
        (fixed && (blk = 0 || fld w 47 40 = 0xFF)) || (!fixed && fld w 47 40 != 0) ||
        ((blk = 0 || fixed) && fld w 38 36 != 0) || (bit w 56 && blk = 0)
      if bad then some 8 else none

/-- A cell of the variant names the site (R152). -/
def siteUsed (cells1 cells2 : List CellW) (s : Nat) : Bool :=
  if s < 8 then cells1.any (fun c =>
    let ar := opArity c.op
    (1 ≤ ar && c.sa = 0x28 + s) || (2 ≤ ar && c.sb = 0x28 + s) || (3 ≤ ar && c.sc = 0x28 + s))
  else (cells1 ++ cells2).any (fun c => opIsSite c.op && cellSite c = s)

/-- Words i to i + n - 1 of a payload. -/
def wordsFrom (bs : List Byte) (i n : Nat) : List Word := (List.range n).map (fun k => wordAt bs (i + k))

/-- The payload of a VARIANT section (R149 to R153) in word order. -/
def checkVariant (sec : Nat) (seen : List Nat) (pl : List Byte) : TvdErr ⊕ Variant :=
  let h := wordAt pl 0
  let vnum := fld h 63 56
  let passes := fld h 55 48
  let c1 := fld h 47 40
  let c2 := fld h 39 32
  let nc := fld h 31 24
  let e := fun w r (b : Bool) => viol b sec w vnum r
  let badHead := vnum > 3 || seen.contains vnum || !(passes = 1 || passes = 2) || c1 = 0 || c1 > 40 ||
    (if passes = 2 then c2 = 0 || c2 > 40 else c2 != 0) || nc > 16
  match firstErr [e 0 6 badHead, e 0 0x15 (fld h 23 0 != 0)] with
  | some x => .inl x
  | none =>
    let consts := wordsFrom pl 1 nc
    let sites := wordsFrom pl (1 + nc) 24
    let w1 := wordsFrom pl (25 + nc) c1
    let w2 := wordsFrom pl (25 + nc + c1) c2
    let cells1 := w1.map decodeCell
    let cells2 := w2.map decodeCell
    let xs := carriedKinds cells1
    let errs := firstErr (
      ((List.range nc).map (fun k =>
        let w := nth 0#64 consts k
        let c : KX := w.setWidth 34
        firstErr [e (1 + k) 0x15 (fld w 63 34 != 0), e (1 + k) 7 (kxExp c = 1023 && c != kxNaN)])) ++
      ((List.range 24).map (fun s =>
        match checkSite s (nth 0#64 sites s) (siteUsed cells1 cells2 s) with
        | some r => some ⟨sec, 1 + nc + s, vnum, r⟩
        | none => none)) ++
      ((List.range c1).map (fun n => checkCell sec vnum nc passes 1 (25 + nc) xs sites cells1 cells2 n (nth 0#64 w1 n))) ++
      ((List.range c2).map (fun n => checkCell sec vnum nc passes 2 (25 + nc + c1) xs sites cells2 [] n (nth 0#64 w2 n))))
    match errs with
    | some x => .inl x
    | none => .inr ⟨vnum, passes, consts.map (·.setWidth 34), sites, cells1, cells2, false⟩

/-- A STREAMS entry on its own (R154 to R156): field ranges, reserved endpoints and bits. -/
def checkStreamWord (sec n : Nat) (w : Word) : Option TvdErr :=
  let s := decodeStream w
  let endOk := fun c => c < 0x78 && !((c < 0x20) && c % 16 > 5)
  firstErr
    [viol (!endOk s.producer || !endOk s.consumer || s.engine > 23 || s.sem > 95 || s.slots < 3 || s.slots > 16 ||
       s.rsv < 3 || s.rsv > s.slots || s.slotLog2 > 4) sec n 0xFF 0xF,
     viol (fld w 7 0 != 0) sec n 0xFF 0x15]

/-- A MATRIX entry on its own (R158, R210). -/
def checkMatrixEntry (sec n : Nat) (earlier : List MxProg) (w : Word) (m : MxProg) : Option TvdErr :=
  let iterOk := if m.kind = 3 ∨ m.kind = 5 then m.iter = 1 else 1 ≤ m.iter && m.iter ≤ 16
  firstErr
    [viol (m.program > 7 || earlier.any (·.program == m.program) || m.kind < 1 || m.kind > 5 || m.passes < 1 ||
       m.passes > 3 || !iterOk) sec (4 * n) 0xFF 0x14,
     viol (fld w 31 0 != 0) sec (4 * n) 0xFF 0x15,
     (mxParamErr m).map (fun (k, r) => ⟨sec, 4 * n + k, 0xFF, r⟩)]

/-- What the sections walked so far have given. -/
structure TvdAcc where
  variants : List Variant
  streams  : Option (List StreamE)
  programs : Option (List MxProg)
  deriving DecidableEq, Repr

/-- The matrix entries of a payload in order. -/
def matrixEntries (sec : Nat) (pl : List Byte) : Nat → Nat → List MxProg → TvdErr ⊕ List MxProg
  | 0, _, acc => .inr acc
  | k + 1, n, acc =>
    let w := wordAt pl (4 * n)
    let m := decodeProg w (wordAt pl (4 * n + 1)) (wordAt pl (4 * n + 2)) (wordAt pl (4 * n + 3))
    match checkMatrixEntry sec n acc w m with
    | some e => .inl e
    | none => matrixEntries sec pl k (n + 1) (acc ++ [m])

/-- One section (R147, R148, R160): its header in field order, then its payload. rest is the number of bytes left.
DESIGN CHOICE (assumption log 39): a SYMBOLS section without OPTIONAL is refused with REASON 0x15 at its FLAGS, and a LENGTH that runs past the
file is reported at that field of the section's header. -/
def checkSection (sec : Nat) (bs : List Byte) (acc : TvdAcc) (rest : Nat) : TvdErr ⊕ TvdAcc :=
  let ty := leAt bs 0 2
  let flags := leAt bs 2 2
  let len := leAt bs 4 4
  let count := leAt bs 8 4
  let pl := (bs.drop 16).take (len - 16)
  let opt := flags % 2 = 1
  let e := fun o r (b : Bool) => viol b sec (0x8000 + o) 0xFF r
  let known := 1 ≤ ty && ty ≤ 4
  let repeated := (ty = 1 && acc.variants.length ≥ 4) || (ty = 2 && acc.streams.isSome) || (ty = 3 && acc.programs.isSome)
  let h := wordAt pl 0
  let badCount :=
    if ty = 1 then len != 16 + 8 * count || count != 25 + fld h 31 24 + fld h 47 40 + fld h 39 32
    else if ty = 2 then len != 16 + 8 * count
    else if ty = 3 then len != 16 + 32 * count || count > 8
    else if ty = 4 then 16 + count > len
    else false
  match firstErr
    [e 0 4 ((!known && !opt) || repeated), e 2 0x15 (flags > 1 || (ty = 4 && !opt)),
     e 4 3 (len % 8 != 0 || len < 16 || len > rest), e 8 3 badCount, e 12 0x15 (leAt bs 12 4 != 0)] with
  | some x => .inl x
  | none =>
    if ty = 1 then
      match checkVariant sec (acc.variants.map (·.num)) pl with
      | .inl x => .inl x
      | .inr v => .inr { acc with variants := acc.variants ++ [{ v with opt := opt }] }
    else if ty = 2 then
      match firstErr ((List.range count).map (fun n => checkStreamWord sec n (wordAt pl n))) with
      | some x => .inl x
      | none => .inr { acc with streams := some ((wordsFrom pl 0 count).map decodeStream) }
    else if ty = 3 then
      match matrixEntries sec pl count 0 [] with
      | .inl x => .inl x
      | .inr ms => .inr { acc with programs := some ms }
    else .inr acc

/-- The sections in file order (R160); fuel bounds their number, want is SECTIONS and rest the number of bytes left. Bytes that hold one section
more than SECTIONS are a violation of SECTIONS, fewer than a section header one of LENGTH (R148, R494). -/
def walkSections (want : Nat) : Nat → Nat → List Byte → TvdAcc → Nat → TvdErr ⊕ TvdAcc
  | 0, _, _, acc, _ => .inr acc
  | fuel + 1, n, bs, acc, rest =>
    if rest = 0 then (if n = want then .inr acc else .inl ⟨0xFFFF, 6, 0xFF, 3⟩)
    else if rest < 16 then .inl ⟨0xFFFF, 8, 0xFF, 3⟩
    else if n = want then .inl ⟨0xFFFF, 6, 0xFF, 3⟩
    else match checkSection n bs acc rest with
      | .inl x => .inl x
      | .inr acc' => walkSections want fuel (n + 1) (bs.drop (leAt bs 4 4)) acc' (rest - leAt bs 4 4)

/-- The formats that the sites of some variants use, as REQ_FORMATS has them (R145). -/
def formatsUsed (vs : List Variant) : Nat :=
  ((vs.flatMap (·.sites)).map (fun w => fld w 63 60)).foldl (fun m f => if f = 0xF then m else m ||| 2 ^ f) 0

/-- Node of an endpoint in the graph of R157: variants 0 to 3, programs 4 to 11. -/
def endNode (c : Nat) : Option Nat :=
  if 0x20 ≤ c ∧ c < 0x60 then some ((c % 0x20) / 8)
  else if 0x60 ≤ c ∧ c < 0x70 then some (4 + (c - 0x60) / 2)
  else if 0x70 ≤ c ∧ c < 0x78 then some (4 + (c - 0x70))
  else none

/-- The edges of the graph of R157. -/
def streamEdges (ss : List StreamE) : List (Nat × Nat) :=
  ss.filterMap (fun s => match endNode s.producer, endNode s.consumer with | some a, some b => some (a, b) | _, _ => none)

/-- The nodes that can be reached from some nodes in at most n edges. -/
def reachNodes (es : List (Nat × Nat)) : Nat → List Nat → List Nat
  | 0, r => r
  | n + 1, r => reachNodes es n ((r ++ (es.filter (fun (a, _) => r.contains a)).map (·.2)).eraseDups)

/-- A buffered stream's site must be KG16 or K32A with BLK 0 (R206). -/
def bufSiteOk (w : Word) : Bool := (fld w 63 60 = 1 || fld w 63 60 = 2) && fld w 59 57 = 0

/-- The cross-section rules (R157, R206, R208, R210) in the order of R157. DESIGN CHOICE (assumption log 39): an entry from a channel read
straight to a channel write is refused with REASON 0x10. A stream from a program to a program, or to or from a program that the file does not
hold, is not refused. -/
def checkCross (t : Tvd) : Option TvdErr :=
  let ss := t.streams
  let idx := List.range ss.length
  let se := fun n => nth (⟨0, 0, 0, 0, 3, 3, 0⟩ : StreamE) ss n
  let e := fun w v r => (some ⟨0xFFFE, w, v, r⟩ : Option TvdErr)
  let inPort := fun c => 0x20 ≤ c && c < 0x40
  let outPort := fun c => 0x40 ≤ c && c < 0x60
  let portUsed := fun (v n : Nat) => match t.variant? v with
    | some x => fld (x.site n) 63 60 != 0xF
    | none => false
  let missing := t.variants.map (fun v => firstErr ((List.range 16).map (fun n =>
    let cnt := if n < 8 then (ss.filter (·.consumer == 0x20 + 8 * v.num + n)).length
      else (ss.filter (·.producer == 0x40 + 8 * v.num + (n - 8))).length
    if fld (v.site n) 63 60 != 0xF && cnt = 0 then e (0xC000 + n) v.num 0x10 else none)))
  let extra := idx.map (fun n =>
    let s := se n
    let vi := (s.consumer - 0x20) / 8
    let vo := (s.producer - 0x40) / 8
    if inPort s.consumer && (!portUsed vi ((s.consumer - 0x20) % 8) ||
        (ss.take n).any (·.consumer == s.consumer)) then e n vi 0x10
    else if outPort s.producer && (!portUsed vo (8 + (s.producer - 0x40) % 8) ||
        (ss.take n).any (·.producer == s.producer)) then e n vo 0x10
    else none)
  let kinds := idx.map (fun n =>
    let s := se n
    let prodOk := s.producer < 0x10 || outPort s.producer || (0x70 ≤ s.producer && s.producer < 0x78)
    let consOk := (0x10 ≤ s.consumer && s.consumer < 0x20) || inPort s.consumer || (0x60 ≤ s.consumer && s.consumer < 0x70)
    let v := if inPort s.consumer then (s.consumer - 0x20) / 8 else if outPort s.producer then (s.producer - 0x40) / 8 else 0xFF
    if !prodOk || !consOk || (inPort s.consumer && outPort s.producer) || (s.producer < 0x10 && s.consumer < 0x20) then
      e n v 0x10
    else if s.consumer = 0x13 then e n v 0x11
    else if 0x70 ≤ s.producer && s.producer < 0x78 && s.consumer < 0x20 && s.consumer != 0x15 then e n v 0x11
    else
      -- R206, R210: the site at a buffered stream's fabric end
      let bad := if inPort s.consumer && 0x70 ≤ s.producer then
          (match t.variant? ((s.consumer - 0x20) / 8) with
           | some x => !bufSiteOk (x.site ((s.consumer - 0x20) % 8)) | none => false)
        else if outPort s.producer && 0x60 ≤ s.consumer then
          (match t.variant? ((s.producer - 0x40) / 8) with
           | some x => !bufSiteOk (x.site (8 + (s.producer - 0x40) % 8)) | none => false)
        else false
      if bad then e n v 0x11
      else if inPort s.consumer && 0x70 ≤ s.producer then
        match t.prog? (s.producer - 0x70), t.variant? ((s.consumer - 0x20) / 8) with
        | some m, some x => if m.kind != 5 && fld m.p0 63 60 != fld (x.site ((s.consumer - 0x20) % 8)) 63 60 then e n v 0x14 else none
        | _, _ => none
      else none)
  let engines := idx.map (fun n =>
    if (ss.take n).any (fun d => d.engine == (se n).engine || d.sem == (se n).sem) then e n 0xFF 0xF else none)
  let roles := t.variants.map (fun v => firstErr (idx.map (fun n =>
    let s := se n
    -- the later entry of a pair that reads and writes one role of the variant
    let mine := fun (s : StreamE) =>
      if inPort s.consumer && (s.consumer - 0x20) / 8 = v.num && s.producer < 0x10 then
        some (s.producer, true, v.site ((s.consumer - 0x20) % 8))
      else if outPort s.producer && (s.producer - 0x40) / 8 = v.num && s.consumer < 0x20 then
        some (s.consumer - 0x10, false, v.site (8 + (s.producer - 0x40) % 8))
      else none
    match mine s with
    | none => none
    | some (r, d, w) =>
      if (ss.take n).any (fun u => match mine u with
        | some (r', d', w') => r' = r && d' != d && (fld w 63 57 != fld w' 63 57)
        | none => false) then e n v.num 0x11 else none)))
  let size := fun (s : StreamE) => s.slots * 2 ^ (16 + s.slotLog2)
  let sram := idx.map (fun n =>
    if ((ss.take (n + 1)).map size).foldl (· + ·) 0 > 48 * 2 ^ 20 then e n 0xFF 0x12 else none)
  let es := streamEdges ss
  let cycle := idx.map (fun n =>
    match endNode (se n).producer, endNode (se n).consumer with
    | some a, some b => if (reachNodes es 12 [b]).contains a then e n 0xFF 0x13 else none
    | _, _ => none)
  firstErr (missing ++ extra ++ kinds ++ engines ++ roles ++ sram ++ cycle)

/-- CHECK of the file up to the cross-section rules (R160). -/
def checkTvd (bs : List Byte) (len : Nat) : TvdErr ⊕ Tvd :=
  match checkHeader bs len with
  | some e => .inl e
  | none =>
    match walkSections (leAt bs 6 2) (len / 16 + 1) 0 (bs.drop 64) ⟨[], none, none⟩ (len - 64) with
    | .inl e => .inl e
    | .inr acc =>
      -- R145, R167: the formats used are known once the sections have been read
      if leAt bs 22 2 != formatsUsed acc.variants then .inl ⟨0xFFFF, 22, 0xFF, 5⟩
      else
        let t : Tvd := ⟨acc.variants, acc.streams.getD [], acc.programs.getD [], wordAt bs 3⟩
        match checkCross t with
        | some e => .inl e
        | none => .inr t

end Sys2Proof.Machine
end

