-- ==== Sys2Proof/Machine/State.lean ====
section
/-! DEFINITION. The state of the block as plain data, and the state right after reset. -/
namespace Sys2Proof.Machine

/-- Faults: what stops the machine. There is none: every command answers a next state. -/
inductive Fault where
  deriving DecidableEq, Repr

/-- Refusals. -/
inductive Refusal where
  /-- The command has no meaning in this model yet. Raised by exec's arms alone. Safe: nothing is claimed of it. -/
  | notModelled (mnemonic : String)
  deriving DecidableEq, Repr

/-- A descriptor as words 0 to 7 (R169). -/
abbrev DescWords := List Word

/-- Tallies of a running command: what its completion record's result and detail words come from (R178, R222, R260,
R306 and the rules of each opcode). -/
structure Tally where
  tiles    : Nat          -- tiles (blocks, rows) done
  replayed : Nat          -- tiles replayed
  held     : Nat          -- descriptors held by this command
  descs    : Nat          -- descriptors finished
  drops    : Nat          -- index entries, contributions or receivers dropped
  extra    : Nat          -- copied rows, skipped descriptors and the like, as the opcode's rule says
  extra2   : Nat
  late     : Bool
  poison   : Bool
  timeout  : Bool
  check    : Bool
  nan      : Bool
  recovered : Bool
  deriving DecidableEq, Repr

def Tally.zero : Tally := ⟨0, 0, 0, 0, 0, 0, 0, false, false, false, false, false, false⟩

/-- A command at the head of its queue after evaluation (R422, R423): its record, what it latched, how far it is. -/
structure Run where
  seq     : Nat
  opc     : Nat
  tag     : Nat
  body    : List Byte
  args    : List KX                    -- A0 (word 0) to A15 of the argument block (R175)
  step    : Nat                        -- the step it works on (of the bank it reads, for readers)
  banks   : List (Nat × Nat)           -- descriptor, bank it bound (R20)
  desc    : Nat                        -- next descriptor to issue
  tile    : Nat                        -- next tile of it to issue
  latched : Option DescWords           -- the descriptor latched at its first tile (R174)
  rows    : List (Nat × Nat)           -- touched runs (first row, last row) of a sparse command (R244)
  copy    : List (Nat × Nat)           -- runs that an UPDATE_SPARSE copies forward (R182)
  behind  : List (Nat × Nat)           -- runs that it catches up (R186)
  phase   : Nat                        -- stage of a command that has several, as its rule says
  issued  : Bool                       -- nothing more to issue
  t       : Tally
  ext     : Nat                        -- deadline extension in beats (R53)
  best    : Bool                       -- best effort (R54)
  began   : Nat                        -- beat of its evaluation
  gated   : Nat                        -- beats waited at a gate, as the record reports it
  bound   : Bool                       -- it has bound the bank it reads (R20, R307)
  aborting : Bool                      -- DISCARD with ABORT_AHEAD ends it (R80)
  taps    : List (Nat × KX)            -- tap results of the descriptor so far (R190)
  info    : List Nat                   -- further latched values, as the opcode's rule says
  unread  : List Nat                   -- accumulator tiles of the descriptor that a tile without a result did not read (R268)
  deriving DecidableEq, Repr

/-- What swept a descriptor in the uncommitted step, as a replay at commit preparation needs it (R74). -/
structure SweepLog where
  desc  : Nat
  words : DescWords
  run   : Run
  deriving DecidableEq, Repr

/-- A tile (or block, or row) that has issued and not completed (R236). -/
structure Job where
  q      : Queue
  seq    : Nat
  desc   : Nat
  tile   : Nat
  kind   : Nat          -- which work of its command, as the opcode's rule says
  words  : DescWords    -- its descriptor as latched (R174)
  fault  : Nat          -- 0 none, else the result that makes it an absent tile: 0x21, 0x23, 0x24
  pages  : List Nat     -- tiered pages it pins (R330)
  writes : List (Nat × Nat)   -- the ranges it writes
  lane   : Nat          -- logical lane that its first position entered (R110)
  lanes  : Nat          -- L when it issued (R113)
  again  : Bool         -- it is being replayed after a lane error (R136)
  deriving DecidableEq, Repr

/-- One queue beside its registers (R426). -/
structure QueueSt where
  run     : Option Run
  zeroing : Bool         -- the completion ring is being zeroed
  pass1   : Nat          -- BASE_SEQ at ENABLE (R423)
  deriving DecidableEq, Repr

/-- An entry of a ring that is not FREE (R233): the tiles it holds, how many the producer has written, the consumer has taken and
have completed. It is FILLING while filled < count, then FULL until a tile is taken, READING while taken < count, then HELD. -/
structure RingEntry where
  desc     : Nat
  first    : Nat
  count    : Nat
  filled   : Nat
  taken    : Nat
  done     : Nat
  borrowed : Bool
  user     : Nat           -- the command that claimed it (queue and SEQ)
  again    : Bool          -- a word of it has been refilled in this beat, or is being refilled, after a two-bit error (R362)
  deriving DecidableEq, Repr

/-- A ring (R231 to R238). TAIL and HEAD follow from RETIRE and the entries. -/
structure Ring where
  slots    : Nat
  rsv      : Nat
  slotLog2 : Nat
  retire   : Nat                 -- 4-bit index with a wrap bit
  entries  : List RingEntry      -- oldest first
  depth    : Nat                 -- D
  starved  : Bool                -- the consumer found no FULL entry in this beat
  thin     : Bool                -- it did so while the producer was neither stopped nor waiting on a gate
  rich     : Nat                 -- beats in a row in which FILLED was at least 2 at every read
  lowSeen  : Bool                -- a read in this beat found FILLED below 2
  stalls   : Nat                 -- boundaries without progress, as the watchdog counts them
  moved    : Bool                -- a pointer has advanced since the last boundary
  last     : Bool                -- the ring of its engine that was active last (R252)
  pinned   : Bool                -- STRM_PF.PIN as it stood at the last boundary (R251)
  user     : Nat                 -- the command that used it last (queue and SEQ), 0 none
  deriving DecidableEq, Repr

/-- A stream stop in progress (R245, R246). -/
structure Stop where
  engine : Nat
  q      : Queue
  seq    : Nat
  desc   : Nat
  tile   : Nat
  page   : Nat
  deriving DecidableEq, Repr

/-- A lane or row error in the window of its count (R137, R224). -/
structure ErrMark where
  phys : Nat
  beat : Nat
  deriving DecidableEq, Repr

/-- An extent of a matrix buffer (R206). -/
structure Extent where
  prog     : Nat
  desc     : Nat
  addr     : Nat
  len      : Nat
  complete : Bool
  byMatrix : Bool          -- the matrix program produces it
  seq      : Nat           -- SEQ of the producing command
  deriving DecidableEq, Repr

/-- The decision of a commit (R75). -/
structure Journal where
  step     : Nat
  decision : Decision
  f        : Nat
  deriving DecidableEq, Repr

/-- A vote as the coordinator holds it (R74, R75). -/
structure VoteRec where
  src    : Nat
  v      : Nat
  vote   : Vote
  held   : Nat
  reason : Nat
  deriving DecidableEq, Repr

/-- Commit state beside COMMIT_STATE, COMMIT_BEAT and COMMIT_PEND (R72 to R79). -/
structure CommitSt where
  votes     : List VoteRec       -- arrival order; only at the coordinator
  voteStep  : Nat
  firstVote : Nat                -- beat at which the first vote arrived
  decided   : Option (Decision × Nat × Nat × Nat)   -- decision held: it, F, and two detail words
  lateFlip  : Bool               -- the decision arrived at or after F
  flipAt    : Nat                -- boundary at which it flips
  doubtFrom : Nat                -- beat at which IN_DOUBT began
  journal   : List Journal       -- newest first, at most 256
  lastVote  : Option Nat         -- V of this member's vote for the running commit
  deriving DecidableEq, Repr, Inhabited

/-- A held descriptor (R191, R193): faulted says a tile fault, not a NaN. -/
structure Held where
  desc    : Nat
  nan     : Bool
  faulted : Bool
  deriving DecidableEq, Repr

/-- Rows of a stamped descriptor as merged runs (first, last) (R182). -/
structure RowSet where
  desc : Nat
  runs : List (Nat × Nat)
  deriving DecidableEq, Repr

/-- How far the sweep of the uncommitted step has read a descriptor's accumulator (R18, R81): every tile below `upTo`. -/
structure Swept where
  desc : Nat
  upTo : Nat
  all  : Bool              -- the sweep of the descriptor has ended
  rows : List Nat          -- tiles read out of that order
  deriving DecidableEq, Repr

/-- The step in progress (R58, R177, R182, R191, R205, R206). -/
structure StepSt where
  written  : List Nat            -- descriptors that an UPDATE or UPDATE_SPARSE of the step wrote
  set      : List Nat            -- the commit set
  held     : List Held           -- in the order of holding
  swept    : List Swept
  touched  : List RowSet         -- rows the step wrote in stamped descriptors
  dense    : List Nat            -- descriptors that a dense UPDATE wrote
  scanned  : List Nat            -- descriptors whose scan ran (R186)
  mxRuns   : List (Nat × Nat)    -- program, home
  extents  : List Extent
  badTiles : Nat                 -- tiles whose accumulator a fold of the next step overwrote (R81)
  exclude  : List Nat            -- exclusions of the COMMIT that is running
  replayed : Bool                -- a DISCARD of the step with REPLAY_GUARD set has completed (R81)
  sweeps   : List SweepLog
  failed   : Nat                 -- result of the last command of the step that ended before its work was done, 0 none (R74)
  deriving DecidableEq, Repr, Inhabited

/-- What a CHECK admitted (R26, R45, R52): LEN_K (0 before any), L, rows, and the work it counted: N, b as a fraction, N_sw. -/
structure AdmitSt where
  lenK  : Nat
  lanes : Nat
  rows  : Nat
  n     : Nat
  bNum  : Nat
  bDen  : Nat
  nSw   : Nat
  deriving DecidableEq, Repr, Inhabited

/-- Staging beside STAGE_CTL, STAGE_RESULT and the staged copies (R62 to R68, R459). -/
structure StageSt where
  armScope  : Bool
  armG      : Nat
  readyAt   : Nat                -- boundary at which READY was sent
  groupAt   : Option Nat         -- boundary at which the group applies, once the AND is known
  snap      : FMap Word          -- the staged set as it stood when CHECK started
  dirty     : Bool               -- an ST write or LOAD since CHECK started
  missed    : Bool               -- in state 4, this member's beat sync failed at a boundary (R68)
  fileCopy  : Option Tvd         -- the checked copy of the staged bit-stream
  chk       : AdmitSt            -- the last CHECK that ended DONE
  inForce   : AdmitSt            -- the CHECK whose set is live
  deriving DecidableEq, Repr, Inhabited

/-- A logged contribution (R259): its tag and the descriptors it covers. -/
structure Contrib where
  step    : Nat
  mbatch  : Nat
  contrib : Nat
  first   : Nat
  last    : Nat
  deriving DecidableEq, Repr

/-- A partial of the norm reduction, from a member below in the tree (R274). -/
structure Partial where
  src   : Nat
  step  : Nat
  value : KX
  deriving DecidableEq, Repr

/-- The norm reduction beside NORM_STAT, NORM_VAL and NORM_KAPPA (R272 to R276). -/
structure NormSt where
  own      : Option (Nat × KX)     -- step and local partial in KX
  partials : List Partial
  sentAt   : Nat                   -- beat at which the partial went up
  local_   : Bool                  -- NORM_LOCAL
  kappas   : List (Nat × KX)       -- clip factors by step, newest first
  timedOut : List Nat              -- steps whose total did not come in time
  deriving DecidableEq, Repr, Inhabited

/-- What one source owes a round, and has sent (R283, R288). -/
structure SrcBytes where
  src      : Nat
  expected : Nat
  received : Nat
  got      : List (Nat × Nat)      -- slots received: entry and offset
  detached : Bool
  deriving DecidableEq, Repr

/-- A Cyan buffer beside CYAN_STATA or CYAN_STATB (R283, R299). -/
structure CyanBuf where
  srcs      : List SrcBytes
  localDone : Bool        -- every local command of the round has completed
  ran       : Bool        -- this instance's own RESHARD of the round has started
  lastData  : Nat         -- beat of the last round data
  deriving DecidableEq, Repr, Inhabited

/-- A slot sent to some receivers (R301, R302): who has not acknowledged it. -/
structure SentSlot where
  entry   : Nat
  ofs     : Nat
  waiting : List Nat
  deriving DecidableEq, Repr

/-- A receiver of the running multicast (R302). -/
structure Receiver where
  inst     : Nat
  attached : Bool
  charges  : Nat
  opened   : Bool          -- it has acknowledged the round-open
  out      : Bool          -- it was detached between the two commands of the round (R299)
  deriving DecidableEq, Repr

/-- A catch-up queued or running (R298, R303): the round it belongs to with what it reads, the next slot, the command that
detached the receiver, and the beat of the last acknowledgement. -/
structure Catchup where
  inst    : Nat
  seq     : Nat
  dither  : Bool                   -- DITHER of that command
  slots   : List (Nat × Nat)       -- entry and offset of each slot still to be acknowledged
  lost    : List Nat               -- source tiles that the command converted as NaN (R295), as 2^32 × entry + tile
  step    : Nat
  map     : List Byte
  banks   : List (Nat × Nat)
  opened  : Bool
  running : Bool
  sent    : Bool                   -- its first slot is on its way
  acked   : Nat
  deriving DecidableEq, Repr

/-- A multicast slot that waits for a page of the build buffer (R301, R330): it is written when the page is held. -/
structure HeldSlot where
  src   : Nat
  mapId : Nat
  step  : Nat
  entry : Nat
  ofs   : Nat
  data  : List Byte
  deriving DecidableEq, Repr

/-- Re-sharding (R281 to R305). -/
structure CyanSt where
  a         : CyanBuf
  b         : CyanBuf
  reshardOk : Bool                 -- a RESHARD of the live map completed since the last EMIT_CYAN
  bound     : Option (Nat × Bool × List (Nat × Nat))  -- bound round: step, buffer B, banks
  boundMap  : List Byte            -- the map that the round latched
  receivers : List Receiver
  ring      : List SentSlot        -- oldest first
  catchups  : List Catchup
  held      : List HeldSlot
  deriving DecidableEq, Repr, Inhabited

/-- What STASH_STAT counts in MiB, in bytes (R322). -/
structure StashSt where
  inBytes  : Nat
  outBytes : Nat
  deriving DecidableEq, Repr, Inhabited

/-- The state of a tiered page (R329). -/
inductive PageState where
  | zero | flash | promoting | resident | evicting | fetching | poisoned
  deriving DecidableEq, Repr

/-- An entry of the tier page table (R329). -/
structure Page where
  st     : PageState
  dirty  : Bool
  keep   : Bool
  demote : Bool
  ref    : Bool
  frame  : Option Nat
  digest : BitVec 32
  got    : Bool          -- a unit of it has been read or programmed, so that its DIGEST is known (R347)
  going  : BitVec 32     -- the digest of the copy that an eviction is programming (R334)
  held   : Bool          -- with DEMOTE set, a pin has come: the eviction takes place at the first boundary without one (R331)
  deriving DecidableEq, Repr

/-- A page that no command has touched (R328): ZERO. -/
def Page.none : Page := ⟨.zero, false, false, false, false, Option.none, 0#32, false, 0#32, false⟩

/-- A page that somebody waits for or holds (R330, R332, R333): who asked and when. -/
structure Wait where
  page  : Nat
  since : Nat
  q     : Nat          -- 0 to 3 the queue whose stream asked, 4 a host burst, 5 TIER_HINT, 6 a page whose frame was given up, 7 a promotion
                       -- that goes on for nobody in particular (R309, R333)
  late  : Bool         -- its tile has waited beyond TIMEOUT (R333)
  who   : Nat          -- the ring of the stream, or the number of the burst
  deriving DecidableEq, Repr

/-- What a bridge operation is for: a unit of a page to promote, evict or program back (R332, R334, R348), a unit read through
(R332), an operation whose end matters to nobody (R331, R346), a unit to relocate from its old place, into a block of its own
where wear levelling chose one (R339), a unit of the own or the mirror
store (R371), the erase of a block (R339), a patrol read (R340), an erase or a page of region 0 (R454), a page of a section of a
checkpoint with its tag, and the commit record of a checkpoint (R342). -/
inductive OpUse where
  | promote (page unit : Nat)
  | evict (page unit : Nat)
  | back (page unit : Nat)
  | through (unit : Nat)
  | void
  | relocate (unit old : Nat) (into : Option Nat)
  | store (unit : Nat)
  | erase (key : Nat)
  | patrol (unit : Nat)
  | image (erase : Bool)
  | ckpt (num : Nat) (crc : BitVec 32)
  | ckptEnd (num : Nat)
  deriving DecidableEq, Repr

/-- A bridge operation outstanding (R345, R346, R414). A read status carries what the program or the erase before it was for (R343). -/
structure BridgeOp where
  ch       : Nat
  opid     : Nat
  kind     : Nat            -- KIND of R414
  addr     : FlashAddr
  use      : OpUse
  issued   : Nat            -- beat
  reissued : Bool
  level    : Nat            -- retry level
  data     : List Byte      -- of a program
  spare    : Spare          -- of a program
  deriving DecidableEq, Repr

/-- A record sent to the bridge (R413, R414). -/
structure BridgeRec where
  ch    : Nat
  opid  : Nat
  kind  : Nat
  p1    : Nat
  fa    : Nat
  addr  : FlashAddr
  data  : List Byte
  spare : Option Spare
  tag   : Option (Nat × Option (BitVec 32))   -- of a checkpoint page: its number, and the CRC-32C of its section; none for a commit record
  deriving DecidableEq, Repr

/-- A flash block (R327, R339, R341); its valid units follow from the mapping. -/
structure Block where
  erases : Nat
  reads  : Nat              -- since its erase
  state  : Nat              -- 0 free, 1 open, 2 full, 3 bad
  next   : Nat              -- next page to program
  cls    : Nat              -- 0 tier, 1 snapshot, 2 relocation
  deriving DecidableEq, Repr

/-- A flash block nobody has used. -/
def Block.none : Block := ⟨0, 0, 0, 0, 0⟩

/-- A tile of a snapshot as the store holds it (R360). -/
structure StoreTile where
  id     : TileId
  bytes  : List Byte
  digest : BitVec 32
  pos    : Nat              -- where its bytes begin in the half
  deriving DecidableEq, Repr

/-- A snapshot in a half of a store (R371 to R377): own store or the mirror of a partner's. -/
structure Snap where
  id         : Nat
  step       : Nat
  sealed     : Bool
  unmirrored : Bool
  records    : List SnapRecord
  tiles      : List StoreTile
  len        : Nat                  -- bytes stored
  order      : Nat                  -- its place in the order of the seals of its store, 0 before its own
  deriving DecidableEq, Repr

/-- A restore that is running or waits for its confirmation (R379 to R384). -/
structure RestoreSt where
  src     : Nat
  snapId  : Nat
  first   : Nat
  last    : Nat
  target  : Nat                   -- target of the first
  asked   : Nat                   -- beat at which the digest tables were asked for
  tables  : Option (List DigestTable)
  pend    : List TileId           -- tiles still to come from the mirror
  failed  : List Nat              -- descriptors with a tile that could not be restored
  waited  : Bool                  -- the time for the tables is over
  deriving DecidableEq, Repr

/-- An entry of the write log (R369): the writes of a tile with the digest of each role, and the command as it stood; word 7 of a descriptor;
a write of a commit or tier table. -/
inductive LogWrite where
  | tile (run : Run) (job : Job) (digests : List (BitVec 32))
  | word7 (desc : Nat) (digest : BitVec 32)
  | table (addr len : Nat) (digest : BitVec 32)
  deriving DecidableEq, Repr

/-- What the channel reads and writes of one line have met: how often it was retried (R402), and whether it was read again for its check
word (R358 step 1). -/
structure LineTry where
  line  : Nat
  tries : Nat
  write : Bool
  again : Bool
  deriving DecidableEq, Repr

/-- A host burst that waits for a promotion (R398). -/
structure Burst where
  sub   : Nat
  write : Bool
  addr  : Nat
  beats : Nat
  tag   : Nat
  data  : List Byte
  mask  : List Bool
  reserved : Bool          -- its HM_QOP is reserved (R397)
  id    : Nat              -- tells it from the other bursts that wait
  deriving DecidableEq, Repr

/-- A host response (R396, R397): sub-port, kind (write done or not), tag, status, data. -/
structure Resp where
  sub    : Nat
  write  : Bool
  tag    : Nat
  status : Nat
  data   : List Byte
  deriving DecidableEq, Repr

/-- A peer message that leaves the block, by what it carries (R82, R407). -/
inductive PeerMsg where
  | beatSync (m : BeatMsg)
  | vote (dest who step v : Nat) (vote : Vote) (held reason : Nat)
  | decision (step : Nat) (d : Decision) (f inst info : Nat)
  | query (step : Nat)
  | answer (dest step : Nat) (d : Decision) (f : Nat)
  | part (dest step : Nat) (value : KX)
  | total (step : Nat) (total kappa : KX)
  | roundOpen (dest mapId step : Nat)
  | roundRefused (dest : Nat)
  | slot (dests : List Nat) (mapId step entry ofs : Nat) (data : List Byte)
  | slotAck (dest entry ofs : Nat)
  | detach (dest : Nat)
  | abandon (dest : Nat)
  | mirror (dest snapId step : Nat) (tiles : List SnapTile) (records : List SnapRecord)
  | seal (dest snapId : Nat)
  | tierPage (dest page : Nat) (digest : BitVec 32) (data : List Byte)
  | pageFetch (dest page : Nat) (digest : BitVec 32)
  | pageData (dest page : Nat) (data : Option (List Byte))
  | digestReq (dest snapId first last : Nat)
  | recordReq (dest snapId first last : Nat)
  | digests (dest snapId step : Nat) (tables : List DigestTable)
  | tileReq (dest snapId : Nat) (t : TileId)
  | tileData (dest snapId : Nat) (t : TileId) (data : Option (List Byte))
  | mirrorLost (dest snapId : Nat)
  deriving DecidableEq, Repr

/-- A frame as a port sends it (R405): the frame, and the 50 words of each active lane by lane number. -/
structure TxFrame where
  port  : Nat
  frame : Frame
  lanes : List (Nat × List (BitVec 128))
  deriving DecidableEq, Repr

/-- A request on a channel port (R400, R401): one whole line, its tag, and for a write the four beats: data, metadata byte, parity. -/
structure ChanReq where
  port  : Nat
  write : Bool
  line  : Nat
  tag   : Nat
  beats : List (List Byte × Byte × BitVec 9)
  deriving DecidableEq, Repr

/-- What leaves the block (assumption log 5): messages by what they say, frames of the peer ports, responses, bridge records, requests of the
channel ports, and the ERR of each register write (R391). Last the frames delivered to the engine, by port (R409). -/
structure Outputs where
  peer   : List PeerMsg
  host   : List Resp
  bridge : List BridgeRec
  link   : List TxFrame
  chan   : List ChanReq
  acks   : List (RegPort × Bool)
  inbox  : List (Nat × Frame)
  deriving DecidableEq, Repr, Inhabited

/-- A frame kept for resending (R408), with the message of this instance that it carries; none for one that was passed on. -/
structure Kept where
  frame : Frame
  msg   : Option PeerMsg
  deriving DecidableEq, Repr

/-- A peer port beside PL_STAT and PL_CNT (R404 to R411): sequence numbers by class. -/
structure PortSt where
  expect   : List Nat           -- next in-order SEQ of each class
  sent     : List Nat           -- next SEQ to send of each class
  keep     : List Kept          -- frames kept for resending, oldest first, at most 64
  lanes    : List Nat           -- active lanes, in the order of the bytes that they carry
  spare    : Option Nat         -- the locked lane that carries no traffic, if there is one
  spareFor : Option Nat         -- the lane whose bytes lane 8 carries
  txen     : Nat                -- PL_TXEN
  bips     : List (Nat × Nat)   -- BIP-8 of words 1 to 49 of the last frame received, by lane number
  txBips   : List (Nat × Nat)   -- the same of the last frame sent
  txCount  : Nat                -- frame counter of the frames sent
  rxCount  : Nat                -- frames received
  lost     : List (Nat × Nat)   -- lanes with the number of their markers lost in a row (R411)
  bipErrs  : List (Nat × Nat)   -- lanes with the frames whose BIP failed on them (R411)
  owe      : List (Nat × Nat)   -- classes with frames to acknowledge, and the SEQ, the next in rotation first (R408)
  deriving DecidableEq, Repr

/-- A port that nothing has come up on. -/
def PortSt.down : PortSt :=
  ⟨List.replicate 6 0, List.replicate 6 0, [], [], none, none, 0, [], [], 0, 0, [], [], []⟩

/-- The service mirror's latches (R467), entries 0 to 31 of each port. -/
structure MirrorSt where
  hcp : List Word
  svp : List Word
  deriving DecidableEq, Repr, Inhabited

/-- The rule fabric, the matrix unit and the bit-stream beside their registers. -/
structure FabSt where
  resident : Tvd
  prev     : Tvd                      -- the bit-stream that tiles of draining variants were issued under (R134)
  mxHeld   : Option Tvd               -- the bit-stream that a running MATRIX started with, once another is resident (R164)
  loading  : List Nat                 -- variants draining or loading (R134)
  laneMap  : List Nat                 -- physical lane of each logical lane
  laneErrs : List ErrMark
  laneLoad : Bool                     -- a spare is being loaded (R138)
  curL     : Nat                      -- L in force (R113)
  nextLane : Nat                      -- logical lane that the next position issued enters (R110)
  rowMap   : List Nat                 -- physical row of each logical row
  rowErrs  : List ErrMark
  genSeed  : Word                     -- seed of the last seeding of the generators (R128)
  deriving DecidableEq, Repr, Inhabited

/-- Gradients beside the GRAD and NORM registers. -/
structure GradSt where
  openStep : Nat                      -- O (R258)
  logOpen  : List Contrib
  logPrev  : List Contrib
  descs    : List Nat                 -- descriptors that an accepted contribution of the open step reached
  closed   : List Nat                 -- descriptors that the last CLOSE_STEP closed with a divisor (R268)
  norm     : NormSt
  deriving DecidableEq, Repr, Inhabited

/-- Tiers and flash beside their registers. -/
structure TierSt where
  pages    : FMap Page
  waits    : List Wait
  free     : List Nat                 -- free frames
  hand     : Nat                      -- eviction clock
  units    : FMap Nat                 -- flash mapping, unit to physical page as R338 lays it out
  blocks   : FMap Block
  ops      : List BridgeOp            -- outstanding, at most 32 on a channel
  backlog  : List BridgeOp            -- waiting for a place on their channel
  placed   : List (Nat × Nat × Nat)   -- page being evicted, unit, new physical page
  fetches  : List (Nat × Nat)         -- page, beat of the request
  through  : FMap (List Byte)         -- units read through for SNAPSHOT and RESTORE; an empty one could not be read
  reclaim  : List Nat                 -- blocks to erase once no unit of theirs is valid
  wseq     : Nat
  turn     : Nat                      -- round robin of R339
  opened   : Nat                      -- blocks opened since the newest checkpoint
  ckpt     : Nat                      -- number of the newest checkpoint
  ckptDue  : Nat                      -- 0 none, 1 by the blocks opened, 2 after a seal
  refreshQ : List Nat
  patrolAt : Nat                      -- beat of the next patrol
  mirPages : FMap (List Byte)         -- tier pages held for a partner (R377)
  ckptUnits : FMap Nat                -- the mapping table as the newest checkpoint holds it (R342)
  ckptBlocks : FMap Block             -- the same of the block table
  slots    : FMap Nat                 -- the slot of a section that was written last, 0 or 1
  deriving DecidableEq, Repr, Inhabited

/-- Resilience beside its registers. -/
structure ResSt where
  halves    : List (Option Snap)      -- own store, two halves
  mirHalves : List (Option Snap)      -- a partner's snapshots
  restore   : Option RestoreSt
  sram      : List (Option Nat)       -- physical bank of each of the 64 logical banks; none: out of use
  sramOut   : List Nat                -- physical banks retired
  sramCopy  : List Nat                -- logical banks that are being copied
  sramErrs  : List ErrMark            -- corrected errors of banks in the window of their count (R363)
  refilled  : List SramAddr           -- words refilled after a two-bit error (R363)
  scrubAt   : Nat                     -- beat at which the scrub's pass began (R361)
  amberLog  : List LogWrite        -- of the current beat, or of the Amber beats: the last 8,192 writes, oldest first
  amberPh   : Nat                     -- Amber: 0 no episode, 1 warning, 2 hold, 3 verification
  lifeBase  : List Nat                -- lifetime counters of the newest checkpoint
  flashSnap : List Word               -- SNAP_STAT, SNAP_PREV and the flags of SNAP_OPEN as the flash holds them (R342, R375)
  snapTiles : Nat                     -- tiles that SNAPSHOTs have taken since the last flip (R47, R54)
  starveAt  : Nat                     -- one more than the beat counted last in STARVE_COUNT
  deriving DecidableEq, Repr, Inhabited

/-- Beat sync and the peer ports beside their registers. -/
structure PeerSt where
  adverts  : List BeatMsg             -- latest message of each sender, its `beat` that of this instance at the receipt
  badRun   : Nat                      -- consecutive boundaries out of range (R28)
  goodRun  : Nat
  synced   : Bool                     -- a beat-sync message has come since reset
  heardAt  : Nat                      -- beat of the master's last message
  newLen   : List (Nat × Nat)         -- pending beat lengths with their first beats, in order (R26)
  ports    : List PortSt
  deriving DecidableEq, Repr, Inhabited

/-- Straps, supplies, reset sequence, sensors, image, test wrapper. -/
structure PinSt where
  straps   : Straps
  phase    : Nat                      -- 0 held in reset; 1 to 5 the phases of R442; 6 READY
  good     : Bool                     -- SUPPLY_GOOD, deglitched
  warn     : Bool                     -- SUPPLY_WARN, deglitched
  halted   : Bool                     -- R356
  cause    : Nat                      -- cause of the reset that comes or came (R445)
  temp     : Option Nat               -- accepted TEMP_CODE
  hotStop  : Bool                     -- issue stopped by temperature until a boundary below THERM_WARN (R439)
  image    : List Word                -- the image buffer
  imgBusy  : Bool
  rstHeld  : Bool                     -- a RESET waits for BUSY to clear (R441)
  bootTvd  : List Byte                -- the image's bit-stream until phase 5
  wir      : Nat                      -- instruction register of the test wrapper
  wdr      : Word                     -- data register that the memory self-test leaves (R417)
  deriving DecidableEq, Repr, Inhabited

/-- The host memory port and the channel ports. -/
structure PortIo where
  credits  : List (Nat × Nat)         -- sub-port by sub-port: request and write-beat credits
  bursts   : List Burst
  tries    : List LineTry
  portBad  : List (Nat × Nat)         -- port, consecutive data beats of it that failed their third retry (R355)
  chTags   : List Nat                 -- CH_ATAG of the next request of each channel port (R400)
  badFree  : List Nat                 -- lines of the stack, in frames that are free, that fail their check word
  slice    : Nat × Nat                -- the lines of the last slice of the scrub: the first, and how many (R361)
  deriving DecidableEq, Repr, Inhabited

/-- The block. -/
structure State where
  pin      : PinSt
  live     : FMap Word                -- live registers by offset
  staged   : FMap Word                -- staged copies by offset
  mirror   : MirrorSt
  stage    : StageSt
  quiesced : Bool                     -- QUIESCE in effect (R464)
  mem      : List Host.Cell           -- Parameter Space; frames are reached through their pages
  badLines : List Nat                 -- lines that fail their check word
  io       : PortIo
  queues   : List QueueSt
  jobs     : List Job                 -- oldest first
  rings    : List Ring                -- those of engines 0 to 23, then those of semaphore pairs 96 to 127
  stops    : List Stop
  fab      : FabSt
  step     : StepSt
  fwd      : List RowSet              -- forward lists (R182)
  commit   : CommitSt
  grad     : GradSt
  cyan     : CyanSt
  stash    : StashSt
  tier     : TierSt
  res      : ResSt
  peer     : PeerSt
  out      : Outputs
  pending  : List Instr               -- the commands that wait, first in first out
  freeCtr  : Nat                      -- the model's own counter of free values
  deriving DecidableEq, Repr, Inhabited

/-- An idle queue. -/
def QueueSt.idle : QueueSt := ⟨none, false, 0⟩

/-- A ring of a number of slots, of which some are reserved, and of a slot size (R231), with no entry in use. -/
def Ring.fresh (slots rsv slotLog2 : Nat) : Ring :=
  { slots := slots, rsv := rsv, slotLog2 := slotLog2, retire := 0, entries := [], depth := 0, starved := false, thin := false, rich := 0
    lowSeen := false, stalls := 0, moved := false, last := false, pinned := false, user := 0 }

/-- A ring of a service engine (R230): slots of 64 KiB, all reserved. -/
def Ring.service (n : Nat) : Ring := Ring.fresh n n 0

/-- A semaphore pair or an engine without a ring. -/
def Ring.unused : Ring := Ring.fresh 0 0 0

/-- The rings of the service engines 24 to 31 by semaphore pair, from pair 96 on (R230). The sort buffer of engine 26 is one slot of
2 MiB. -/
def serviceRings : List Ring :=
  let three := [Ring.service 4, Ring.service 4, Ring.service 4, Ring.unused]
  three ++ three ++ [Ring.fresh 1 1 5, Ring.service 8, Ring.unused, Ring.unused] ++ three ++ List.replicate 4 (Ring.service 4) ++
    three ++ three ++ three

/-- An empty Cyan buffer. -/
def CyanBuf.empty : CyanBuf := ⟨[], false, false, 0⟩

/-- The step state when nothing of the step has been written. -/
def StepSt.empty : StepSt := ⟨[], [], [], [], [], [], [], [], [], 0, [], false, [], 0⟩

/-- The state right after reset: the block is held in reset, every register at its Reset value. -/
def State.reset : State where
  pin := ⟨⟨0, 0, 3⟩, 0, true, false, false, 0, none, false, [], false, false, [], 0, 0#64⟩
  live := resetRegs
  staged := resetRegs.filter (fun e => isStaged e.1)
  mirror := ⟨List.replicate 32 0#64, List.replicate 32 0#64⟩
  stage := ⟨false, 0, 0, none, [], false, false, none, ⟨0, 256, 128, 0, 0, 1, 0⟩, ⟨0, 256, 128, 0, 0, 1, 0⟩⟩
  quiesced := false
  mem := []
  badLines := []
  io := ⟨List.replicate 32 (0, 0), [], [], [], List.replicate 64 0, [], (0, 0)⟩
  queues := List.replicate 4 QueueSt.idle
  jobs := []
  rings := List.replicate 24 Ring.unused ++ serviceRings
  stops := []
  fab := ⟨Tvd.empty, Tvd.empty, none, [], List.range 256, [], false, 256, 0, List.range 128, [], 1#64⟩
  step := StepSt.empty
  fwd := []
  commit := ⟨[], 0, 0, none, false, 0, 0, [], none⟩
  grad := ⟨1, [], [], [], [], ⟨none, [], 0, false, [], []⟩⟩
  cyan := ⟨CyanBuf.empty, CyanBuf.empty, false, none, [], [], [], [], []⟩
  stash := ⟨0, 0⟩
  tier := ⟨[], [], [], 0, [], [], [], [], [], [], [], [], 0, 0, 0, 0, 0, [], 2 ^ 26, [], [], [], []⟩
  res := ⟨[none, none], [none, none], none, (List.range 64).map some, [], [], [], [], 0, [], 0, List.replicate 8 0, [], 0, 0⟩
  peer := ⟨[], 0, 0, false, 0, [], List.replicate 8 PortSt.down⟩
  out := ⟨[], [], [], [], [], [], []⟩
  pending := []
  freeCtr := 0

end Sys2Proof.Machine
end

