-- ==== Sys2Proof/Machine/Frames.lean ====
section
/-! DEFINITION. Frames of the Abrek link on the lanes of a port (R405, R406): their words, the scrambling, the BIP-8, the CRC. Lane k of a port's
active lanes carries bytes 16k to 16k + 15 of each frame word; the bytes of a word are little-endian, so that bit 0 is sent first. -/
namespace Sys2Proof.Machine

/-! Scrambling -/

/-- The next n bits, n at most 28, of the generator x^31 + x^28 + 1, and its register after them. Bit 0 of the register is its oldest bit. -/
def scramBits (n r : Nat) : Nat × Nat :=
  let x := (r ^^^ (r >>> 3)) % 2 ^ n
  (x, (r >>> n) ||| (x <<< (31 - n)))

/-- The next 128 bits of the generator, the first one in bit 0 (R406). -/
def scramWord (r : Nat) : Nat × Nat :=
  let step := fun (acc : Nat × Nat × Nat) (n : Nat) =>
    let (x, r) := scramBits n acc.2.2
    (acc.1 ||| (x <<< acc.2.1), acc.2.1 + n, r)
  let (w, _, r) := [28, 28, 28, 28, 16].foldl step (0, 0, r)
  (w, r)

/-- The output of the generator over some words. -/
def scramWords : Nat → Nat → List (BitVec 128)
  | 0, _ => []
  | n + 1, r => let (w, r) := scramWord r; BitVec.ofNat 128 w :: scramWords n r

/-- The words that follow the marker of a lane scrambled, or descrambled (R406): the generator is reloaded at each marker. DESIGN CHOICE: the
reload's bit 0 is the generator's oldest bit (assumption log 25). -/
def scramble (lane : Nat) (ws : List (BitVec 128)) : List (BitVec 128) :=
  (List.zip ws (scramWords ws.length (0x7FFFFFFF ^^^ lane))).map (fun (a, b) => a ^^^ b)

/-- The BIP-8 of some words (R405): bit i is the parity of bits i of their bytes. -/
def bip8 (ws : List (BitVec 128)) : Nat := ((ws.flatMap (fun w => leBytes 16 w.toNat)).foldl (· ^^^ ·) 0#8).toNat

/-! Frames -/

/-- The mask of some INST_IDs, 32 bytes. -/
def destBytes (ds : List Nat) : List Byte := leBytes 32 (ds.eraseDups.foldl (fun m d => m ||| 2 ^ d) 0)

/-- Words 1 to 48 of a frame on n lanes (R405): header and payload. -/
def frameBody (f : Frame) (n : Nat) : List Byte :=
  padTo 0#8 (16 * n) (leBytes 1 f.cls ++ leBytes 1 f.src ++ leBytes 2 f.payload.length ++ leBytes 4 f.seq ++ destBytes f.dest ++
    leBytes 1 f.ackClass ++ leBytes 4 f.ackSeq ++ leBytes 1 f.swap) ++ padTo 0#8 (752 * n) f.payload

/-- Word 49 of a frame on n lanes (R405). NAK_CLASS 0xFF and REFUSE_CODE 0 stand for none (assumption log 25). -/
def frameTrailer (f : Frame) (n : Nat) : List Byte :=
  padTo 0#8 (16 * n) (leBytes 4 (crc32c (frameBody f n)).toNat ++
    (match f.nak with | some (c, q) => leBytes 1 c ++ leBytes 4 q | none => leBytes 5 0xFF) ++
    (match f.refuse with | some (q, c) => leBytes 4 q ++ leBytes 1 c | none => leBytes 5 0))

/-- The words that lane number i of n carries of some frame words. -/
def laneWords (n i : Nat) (bs : List Byte) : List (BitVec 128) :=
  (List.range (bs.length / (16 * n))).map (fun k => BitVec.ofNat 128 (leAt bs (16 * n * k + 16 * i) 16))

/-- Words 1 to 49 of a frame as the active lanes send them, scrambled (R405, R406). -/
def frameLanes (f : Frame) (lanes : List Nat) : List (List (BitVec 128)) :=
  let n := lanes.length
  (List.zip (List.range n) lanes).map (fun (i, l) => scramble l (laneWords n i (frameBody f n ++ frameTrailer f n)))

/-- The marker of a lane (R405): its number, the BIP-8 of the frame before, the frame counter. -/
def marker (lane bip count : Nat) : BitVec 128 :=
  BitVec.ofNat 128 (0x4A1EB5E14A1EB5E1 * 2 ^ 64 + lane * 2 ^ 56 + bip * 2 ^ 48 + count)

/-- The active lanes of a frame with their 50 words: the marker, not scrambled, and words 1 to 49 (R405, R406). -/
def PortSt.words (x : PortSt) (f : Frame) : List (Nat × List (BitVec 128)) :=
  (List.zip x.lanes (frameLanes f x.lanes)).map (fun (l, ws) =>
    (l, marker l (((x.txBips.find? (·.1 == l)).map (·.2)).getD 0) x.txCount :: ws))

/-- A frame made ready to leave a port (R405, R408): it acknowledges the class that is next in rotation, and no class with ACK_CLASS 0xFF (assumption
log 25). -/
def PortSt.tx (x : PortSt) (p : Nat) (f : Frame) : PortSt × TxFrame :=
  let f := match x.owe with
    | (c, n) :: _ => { f with ackClass := c, ackSeq := n }
    | [] => { f with ackClass := 0xFF, ackSeq := 0 }
  let ws := x.words f
  ({ x with owe := x.owe.drop 1, txCount := (x.txCount + 1) % 2 ^ 48, txBips := ws.map (fun (l, w) => (l, bip8 (w.drop 1))) }, ⟨p, f, ws⟩)

/-- What a port reads from the words that its active lanes have received. -/
structure RxFrame where
  f    : Frame
  good : Bool                 -- the markers, the BIP-8 of the frame before and the CRC are right
  bips : List (Nat × Nat)     -- the BIP-8 of this frame, by lane number
  lost : List Nat             -- lanes without their marker
  errs : List Nat             -- lanes on which the BIP-8 of the frame before fails
  deriving DecidableEq, Repr

/-- A frame's fields from words 1 to 49, descrambled, on n lanes. -/
def frameOf (n : Nat) (bs : List Byte) : Frame :=
  let tr := bs.drop (784 * n - 16 * n)
  { cls := leAt bs 0 1, src := leAt bs 1 1, seq := leAt bs 4 4
    dest := let m := leAt bs 8 32; (List.range 256).filter m.testBit
    ackClass := leAt bs 40 1, ackSeq := leAt bs 41 4, swap := leAt bs 45 1
    payload := ((bs.drop (16 * n)).take (752 * n)).take (leAt bs 2 2)
    nak := if leAt tr 4 1 = 0xFF then none else some (leAt tr 4 1, leAt tr 5 4)
    refuse := if leAt tr 13 1 = 0 then none else some (leAt tr 9 4, leAt tr 13 1) }

/-- A frame read on a port (R405, R406, R408). The first frame after a lane has come into use has no BIP-8 to check. -/
def PortSt.readFrame (x : PortSt) (ws : List (List (BitVec 128))) : RxFrame :=
  let n := x.lanes.length
  let ls := List.zip x.lanes ws
  let rest := ls.map (fun (l, w) => scramble l (w.drop 1))
  let bs := (List.range 49).flatMap (fun k => rest.flatMap (fun w => leBytes 16 (nth 0#128 w k).toNat))
  let bips := ls.map (fun (l, w) => (l, bip8 (w.drop 1)))
  let head := fun (w : List (BitVec 128)) => (nth 0#128 w 0).toNat
  let lost := (ls.filter (fun (l, w) => head w / 2 ^ 56 != (marker l 0 0).toNat / 2 ^ 56)).map (·.1)
  let errs := (ls.filter (fun (l, w) => !lost.contains l && x.bips.any (fun b => b.1 = l && b.2 != head w / 2 ^ 48 % 256))).map (·.1)
  let good := ws.length = n && ws.all (fun w => w.length = 50) && lost.isEmpty && errs.isEmpty &&
    leAt bs (768 * n) 4 = (crc32c (bs.take (768 * n))).toNat && leAt bs 2 2 ≤ 752 * n
  ⟨frameOf n bs, good, bips, lost, errs⟩

end Sys2Proof.Machine
end

