-- ==== Sys2Proof/Machine/Ops.lean ====
section
/-! DEFINITION. The named operations over registers, memory, queues and counters that every meaning is written with. -/
namespace Sys2Proof.Machine

/-- What an unlisted register reads as. -/
def regDflt (_ : Nat) : Word := 0#64

/-- What an unlisted byte of Parameter Space reads as: the contents that phase 3 of the reset sequence leaves. Zero but
for the top byte of word 7 of every descriptor (R170: 0x4000_0000_0000_0000) and the fold map (R255: 0xFFFF_FFFF). -/
def memDflt (a : Nat) : Byte :=
  if a < 0x400000 then (if a % 64 = 63 then 0x40#8 else 0#8)
  else if 0x24800000 ≤ a ∧ a < 0x25800000 then 0xFF#8
  else 0#8

/-- What an untouched page reads as. -/
def pageDflt (_ : Nat) : Page := Page.none

/-- What a block nobody has used reads as. -/
def blockDflt (_ : Nat) : Block := Block.none

/-- What an unmapped unit reads as: no physical unit (R337). -/
def unitDflt (_ : Nat) : Nat := 0xFFFFFFFF

/-- The sparse maps of a state in canonical form. -/
def State.canon (s : State) : State :=
  { s with live := fcanon regDflt s.live, staged := fcanon regDflt s.staged, mem := fcanon memDflt s.mem
           tier := { s.tier with pages := fcanon pageDflt s.tier.pages, units := fcanon unitDflt s.tier.units
                                 blocks := fcanon blockDflt s.tier.blocks } }

/-- The sparse maps of a state are in canonical form. -/
def State.wf (s : State) : Bool :=
  fwf regDflt s.live && fwf regDflt s.staged && fwf memDflt s.mem && fwf pageDflt s.tier.pages &&
    fwf unitDflt s.tier.units && fwf blockDflt s.tier.blocks

/-- The outcome of a command with the effect f, whatever phase the block is in: its sparse maps in canonical form, the
queue of waiting commands as it was. -/
def State.done (s : State) (f : State → State) : Host.Outcome State Fault Refusal :=
  .next { (f s).canon with pending := s.pending }

/-- The outcome of a command with the effect f: nothing while the block is held in reset (R441). -/
def State.act (s : State) (f : State → State) : Host.Outcome State Fault Refusal :=
  if s.pin.phase = 0 then .next s else s.done f

/-- The outcome of a command that the engine runs itself: nothing before READY (R442), in reset, or while the sequencer
is halted (R356). -/
def State.work (s : State) (f : State → State) : Host.Outcome State Fault Refusal :=
  if s.pin.phase < 6 ∨ s.pin.halted then .next s else s.done f

/-- The live copy of a register. -/
def State.reg (s : State) (o : Nat) : Word := fget regDflt s.live o

/-- The staged copy of a register. -/
def State.stg (s : State) (o : Nat) : Word := fget regDflt s.staged o

/-- A live register written whole by the engine. -/
def State.setReg (s : State) (o : Nat) (w : Word) : State := { s with live := fset regDflt s.live o w }

/-- A staged copy written whole. -/
def State.setStg (s : State) (o : Nat) (w : Word) : State := { s with staged := fset regDflt s.staged o w }

/-- A live register changed by a function. -/
def State.upd (s : State) (o : Nat) (f : Word → Word) : State := s.setReg o (f (s.reg o))

/-- Field [hi:lo] of a live register. -/
def State.f (s : State) (o hi lo : Nat) : Nat := fld (s.reg o) hi lo

/-- Bit i of a live register. -/
def State.b (s : State) (o i : Nat) : Bool := bit (s.reg o) i

/-- Field [hi:lo] of a live register set. -/
def State.setF (s : State) (o hi lo v : Nat) : State := s.upd o (fun w => setFld w hi lo v)

/-- Bit i of a live register set to a value. -/
def State.setB (s : State) (o i : Nat) (b : Bool) : State := s.upd o (fun w => setBit w i b)

/-- A saturating counter field advanced (R457). -/
def State.count (s : State) (o hi lo n : Nat) : State := s.upd o (fun w => satAdd w hi lo n)

/-- The bytes of memory from an address on. -/
def State.bytes (s : State) (a n : Nat) : List Byte := fgetRange memDflt (fdrop s.mem a) a n

/-- One byte of memory. -/
def State.byte (s : State) (a : Nat) : Byte := fget memDflt s.mem a

/-- Memory with bytes written from an address on. A line written whole has a good check word again (R359). -/
def State.store (s : State) (a : Nat) (bs : List Byte) : State :=
  { s with mem := fsetRange memDflt s.mem a bs
           badLines := s.badLines.filter (fun l => !(a ≤ 256 * l && 256 * l + 256 ≤ a + bs.length)) }

/-- A line fails its check word, or lies on a failed channel port (R358, R402): line L belongs to port L mod 64 (R401). -/
def State.badLine (s : State) (l : Nat) : Bool := s.badLines.contains l || s.b oChFailed (l % 64)

/-- A line of a range is uncorrectable (R358). -/
def State.lineBad (s : State) (a n : Nat) : Bool :=
  n != 0 && (s.badLines.any (fun l => a / 256 ≤ l && l ≤ (a + n - 1) / 256) ||
    (s.reg oChFailed != 0#64 &&
      (List.range (min 64 ((a + n - 1) / 256 + 1 - a / 256))).any (fun i => s.b oChFailed ((a / 256 + i) % 64))))

/-- A write would have to merge into a line that is uncorrectable (R359): then it is not performed. -/
def State.mergeBad (s : State) (a n : Nat) : Bool :=
  n != 0 && ((a % 256 != 0 && s.badLine (a / 256)) || ((a + n) % 256 != 0 && s.badLine ((a + n) / 256)))

/-- The bytes of a write with those on failed channel ports left as they are (R402). -/
def State.portKeep (s : State) (a : Nat) (bs : List Byte) : List Byte :=
  List.zipWith (fun (i : Nat) (x : Byte × Byte) => if s.b oChFailed ((a + i) / 256 % 64) then x.1 else x.2)
    (List.range bs.length) ((s.bytes a bs.length).zip bs)

/-- Stack offset of a Parameter Space address (R323, R324): a tiered page lies in its frame. -/
def State.stackOfs (s : State) (a : Nat) : Nat :=
  if a < 0x10000000000 then a
  else match (fget pageDflt s.tier.pages ((a - 0x10000000000) / 2 ^ 21)).frame with
    | some f => (s.f oTierMap 48 32 + f) * 2 ^ 21 + a % 2 ^ 21
    | none => a

/-! Requests of the channel ports (R357, R400, R401) -/

/-- Parity of the bits of some bytes. -/
def parityOf (bs : List Byte) : Nat :=
  let x := (bs.foldl (· ^^^ ·) 0#8).toNat
  ((List.range 8).map (fun i => x / 2 ^ i % 2)).sum % 2

/-- A line's four beats: 64 bytes of data, a byte of its check word, least significant first (R357), and the even parity: bit i over
bytes 8i to 8i + 7, bit 8 over the metadata byte (R400). -/
def lineBeats (bs : List Byte) : List (List Byte × Byte × BitVec 9) :=
  let c := leBytes 4 (crc32c bs).toNat
  (List.range 4).map (fun k =>
    let d := (bs.drop (64 * k)).take 64
    let m := nth 0#8 c k
    let ps := (List.range 8).map (fun i => parityOf ((d.drop (8 * i)).take 8)) ++ [parityOf [m]]
    (d, m, BitVec.ofNat 9 ((List.zip (List.range 9) ps).map (fun (i, b) => b * 2 ^ i)).sum))

/-- Requests for lines of the stack: a write with its data, or a read. Each goes to its port with the port's next tag; a port that has failed is
sent none (R400 to R402). -/
def State.chanGo (s : State) (rs : List (Nat × Option (List Byte))) : State :=
  let (tags, qs) := (rs.filter (fun x => x.1 < 2 ^ 29 && !s.b oChFailed (x.1 % 64))).foldl
    (fun (acc : List Nat × List ChanReq) x =>
      let p := x.1 % 64
      let t := nth 0 acc.1 p
      (setNth acc.1 p ((t + 1) % 64), acc.2 ++ [⟨p, x.2.isSome, x.1, t, (x.2.map lineBeats).getD []⟩])) (s.io.chTags, [])
  { s with io := { s.io with chTags := tags }, out := { s.out with chan := s.out.chan ++ qs } }

/-- The lines of a range, in Parameter Space. -/
def linesOf (a n : Nat) : List Nat := if n = 0 then [] else (List.range ((a + n - 1) / 256 + 1 - a / 256)).map (a / 256 + ·)

/-- The channel reads of some ranges: whole lines. -/
def State.chanGet (s : State) (rs : List (Nat × Nat)) : State :=
  s.chanGo ((rs.flatMap (fun (a, n) => linesOf a n)).map (fun l => (s.stackOfs (256 * l) / 256, none)))

/-- The channel writes of a range that memory holds: whole lines; one that the write covers in part is read first and merged (R359). -/
def State.chanPut (s : State) (a n : Nat) : State :=
  let ls := linesOf a n
  let bs := s.bytes (256 * (a / 256)) (256 * ls.length)
  s.chanGo ((List.zip (List.range ls.length) ls).flatMap (fun (i, l) =>
    let p := s.stackOfs (256 * l) / 256
    (if a ≤ 256 * l && 256 * l + 256 ≤ a + n then [] else [(p, none)]) ++ [(p, some ((bs.drop (256 * i)).take 256))]))

/-- A write under R359: performed, unless it covers part of an uncorrectable line; lines of a failed port drop it. Its channel requests go out. -/
def State.put (s : State) (a : Nat) (bs : List Byte) : State :=
  if s.mergeBad a bs.length then s
  else (s.store a (if s.reg oChFailed = 0#64 then bs else s.portKeep a bs)).chanPut a bs.length

/-- Bytes of a write do not reach the stack: it cannot merge (R359), or a line of it lies on a failed channel port (R402). -/
def State.writeLost (s : State) (a n : Nat) : Bool :=
  s.mergeBad a n || (n != 0 && s.reg oChFailed != 0#64 &&
    (List.range (min 64 ((a + n - 1) / 256 + 1 - a / 256))).any (fun i => s.b oChFailed ((a / 256 + i) % 64)))

/-- A little-endian number of n bytes in memory. -/
def State.num (s : State) (a n : Nat) : Nat := ofLe (s.bytes a n)

/-- Memory with a little-endian number written (R359). -/
def State.storeNum (s : State) (a n v : Nat) : State := s.put a (leBytes n v)

/-- A counter of n bytes in memory advanced; it saturates (R105, R189). -/
def State.countMem (s : State) (a n v : Nat) : State :=
  if v = 0 then s else s.storeNum a n (min (s.num a n + v) (2 ^ (8 * n) - 1))

/-- The global beat (R27). -/
def State.beat (s : State) : Nat := s.f oBeatNow 47 0

/-- The last committed step (R78). -/
def State.stepNow (s : State) : Nat := s.f oCommitState 63 32

/-- INST_ID of this instance. -/
def State.me (s : State) : Nat := s.pin.straps.instId % 256

/-- n draws taken from the model's counter of free values. -/
def State.drawn (s : State) (n : Nat) : State := { s with freeCtr := s.freeCtr + n }

/-- Number of a queue (R418). -/
def qIdx : Queue → Nat
  | .gq => 0 | .aq => 1 | .uq => 2 | .sq => 3

/-- The queue of a number. -/
def qOf (n : Nat) : Queue := if n = 0 then .gq else if n = 1 then .aq else if n = 2 then .uq else .sq

/-- A queue's own state. -/
def State.queue (s : State) (q : Queue) : QueueSt := nth QueueSt.idle s.queues (qIdx q)

/-- A queue's own state replaced. -/
def State.setQueue (s : State) (q : Queue) (x : QueueSt) : State := { s with queues := setNth s.queues (qIdx q) x }

/-- The running command of a queue. -/
def State.run (s : State) (q : Queue) : Option Run := (s.queue q).run

/-- The running command of a queue replaced. -/
def State.setRun (s : State) (q : Queue) (r : Option Run) : State := s.setQueue q { s.queue q with run := r }

/-- The last SEQ accepted by doorbell. -/
def State.posted (s : State) (q : Queue) : Nat := s.f (oQDoneSeq (qIdx q)) 63 32
/-- The last SEQ completed. -/
def State.doneSeq (s : State) (q : Queue) : Nat := s.f (oQDoneSeq (qIdx q)) 31 0
/-- BASE_SEQ of a queue. -/
def State.baseSeq (s : State) (q : Queue) : Nat := s.f (oQCfg (qIdx q)) 63 32
/-- N, the entries of a queue's rings. -/
def State.entries (s : State) (q : Queue) : Nat := 2 ^ s.f (oQCfg (qIdx q)) 12 8

/-- A difference modulo 2^32. -/
def sub32 (a b : Nat) : Nat := (a % 2 ^ 32 + 2 ^ 32 - b % 2 ^ 32) % 2 ^ 32

/-- A SEQ of a queue has completed (R242): compared modulo 2^32 within a window of 2^31. -/
def State.seqDone (s : State) (q : Queue) (seq : Nat) : Bool := sub32 (s.doneSeq q) seq < 2 ^ 31

/-- The entry of a SEQ in its ring (R418). -/
def State.entryOf (s : State) (q : Queue) (seq : Nat) : Nat := sub32 seq (s.baseSeq q) % s.entries q

/-- Address of a SEQ's command record (R418). -/
def State.recAddr (s : State) (q : Queue) (seq : Nat) : Nat :=
  0x38000000 + 0x400000 * qIdx q + 64 * s.entryOf q seq

/-- Address of a SEQ's completion record (R418). -/
def State.compAddr (s : State) (q : Queue) (seq : Nat) : Nat :=
  0x39000000 + 0x200000 * qIdx q + 32 * s.entryOf q seq

/-- A register of the sets that a message or an event addresses: member i of the 256. -/
def hasBit (w : List Nat) (i : Nat) : Bool := w.contains i

/-- The NUM_STAT bits of some site counts (R107). -/
def State.numStat (s : State) (c : Counts) (ovf : Bool) : State :=
  let w := s.reg oNumStat
  let w := if c.sat > 0 then setBit w 0 true else w
  let w := if c.vanish > 0 then setBit w 1 true else w
  let w := if c.nan > 0 then setBit w 2 true else w
  let w := if c.viol > 0 then setBit w 3 true else w
  let w := if ovf then setBit w 4 true else w
  s.setReg oNumStat (satAdd w 63 32 c.viol)

/-- Site counts added to a record of R189 at an address (R105). -/
def State.addCountsAt (s : State) (a : Nat) (c : Counts) : State :=
  ((((s.countMem a 8 c.total).countMem (a + 8) 4 c.sat).countMem (a + 12) 4 c.vanish).countMem (a + 16) 4 c.nan).countMem
    (a + 20) 4 c.viol

/-- Address of the record of a site on a descriptor's statistics page (R168, R189). -/
def siteRec (desc site : Nat) : Nat := 0x400000 + 4096 * desc + 128 * site

/-- A NaN event before it is captured (R126, R192). -/
structure NanCap where
  q      : Queue
  cell   : Nat
  op     : Nat
  site   : Nat
  tensor : Nat
  lane   : Nat
  seq    : Nat
  tile   : Nat
  a      : KX
  b      : KX
  c      : KX
  deriving DecidableEq, Repr

/-- The first-NaN record (R192): captured when VALID is clear, counted otherwise. -/
def State.captureNan (s : State) (e : NanCap) : State :=
  if s.b oNanRecord 63 then s.count oNanBeat 63 48 1
  else
    let w := setFld (setFld (setFld (setFld (setFld (setFld (setFld 0#64 63 63 1) 62 60 (qIdx e.q)) 55 48 e.cell) 47 40 e.op)
      39 32 e.site) 31 16 e.tensor) 7 0 e.lane
    (((((s.setReg oNanRecord w).setReg oNanTile (setFld (setFld 0#64 63 32 e.seq) 31 0 e.tile)).setReg oNanOpa
      (e.a.setWidth 64)).setReg oNanOpb (e.b.setWidth 64)).setReg oNanOpc (e.c.setWidth 64)).setReg oNanBeat
      (setFld 0#64 47 0 s.beat)

/-- STALE set in the ADMIT_REPORT registers named (R51, R52). -/
def State.setStale (s : State) (ks : List Nat) : State := ks.foldl (fun s k => s.setB (oAdmitReport k) 0 true) s

/-- A message came at one of the last 4 boundaries (R26, R29). -/
def State.fresh (s : State) (m : BeatMsg) : Bool := s.beat < m.beat + 4

/-- The commit group's live membership (R71): INST_IDs whose live GROUP_ID equals this instance's, this one among them. -/
def State.members (s : State) : List Nat :=
  let g := s.f oCommitGroup 39 32
  let others := (s.peer.adverts.filter (fun m => m.live.groupId = g && m.src != s.me)).map (·.src)
  (s.me :: others).eraseDups.insertionSort (fun a b => a ≤ b)

/-- The commit group's members with the coordinator first and the others ascending: the tree of R274 in its fan-out of 8. -/
def State.normOrder (s : State) : List Nat :=
  let c := s.f oCommitGroup 55 48
  c :: s.members.filter (· != c)

/-- This member's place in the tree. -/
def State.normPlace (s : State) : Nat := (s.normOrder.idxOf? s.me).getD 0

/-- The children of this member, in ascending INST_ID order (R274). -/
def State.normKids (s : State) : List Nat :=
  ((List.range 8).filterMap (fun i => s.normOrder[8 * s.normPlace + 1 + i]?)).insertionSort (fun a b => a ≤ b)

/-- The parent of this member; none at the root. -/
def State.normParent (s : State) : Option Nat :=
  if s.normPlace = 0 then none else s.normOrder[(s.normPlace - 1) / 8]?

/-! The peer ports -/

/-- A peer port's own state. -/
def State.port (s : State) (p : Nat) : PortSt := nth PortSt.down s.peer.ports p

/-- A peer port's own state replaced. -/
def State.setPort (s : State) (p : Nat) (x : PortSt) : State := { s with peer := { s.peer with ports := setNth s.peer.ports p x } }

/-- The port is up (R410). -/
def State.portUp (s : State) (p : Nat) : Bool := s.b (oPlStat p) 0

/-- The port behind which an instance lies, by the route table (R409); none for an entry that is not valid. -/
def State.route (s : State) (d : Nat) : Option Nat :=
  let r := s.num (0x3A000000 + d) 1
  if r < 128 then none else some (r % 8)

/-- The peer class of a message (R407). -/
def PeerMsg.cls : PeerMsg → Nat
  | .beatSync _ => 1
  | .part _ _ _ | .total _ _ _ => 2
  | .vote _ _ _ _ _ _ _ | .decision _ _ _ _ _ | .query _ | .answer _ _ _ _ => 3
  | .roundOpen _ _ _ | .roundRefused _ | .slot _ _ _ _ _ _ | .slotAck _ _ _ | .detach _ | .abandon _ => 4
  | .mirror _ _ _ _ _ | .seal _ _ | .tierPage _ _ _ _ | .pageFetch _ _ _ | .pageData _ _ _ | .digestReq _ _ _ _ | .recordReq _ _ _ _ |
    .digests _ _ _ _ | .tileReq _ _ _ | .tileData _ _ _ _ | .mirrorLost _ _ => 5

/-- The instances that a message goes to: a decision and a total go down the tree, a query to every other member (R75, R77, R274). A message
of beat sync goes out on every port. -/
def State.destsOf (s : State) : PeerMsg → List Nat
  | .vote d _ _ _ _ _ _ | .answer d _ _ _ | .part d _ _ | .roundOpen d _ _ | .roundRefused d | .slotAck d _ _ | .detach d | .abandon d |
    .mirror d _ _ _ _ | .seal d _ | .tierPage d _ _ _ | .pageFetch d _ _ | .pageData d _ _ | .digestReq d _ _ _ |
    .recordReq d _ _ _ | .digests d _ _ _ | .tileReq d _ _ | .tileData d _ _ _ | .mirrorLost d _ => [d]
  | .slot ds _ _ _ _ _ => ds
  | .decision _ _ _ _ _ | .total _ _ _ => s.normKids
  | .query _ => s.members.filter (· != s.me)
  | .beatSync _ => []

/-- The ports that a message leaves by, each once (R409). -/
def State.portsOf (s : State) (m : PeerMsg) : List Nat :=
  let ps := match m with
    | .beatSync _ => List.range 8
    | m => ((s.destsOf m).filterMap s.route).eraseDups
  ps.filter s.portUp

/-- A frame sent by a port and kept for resending, with the message that it carries (R408): it takes the next SEQ of its class, and the port keeps
64. -/
def State.txNew (s : State) (p : Nat) (f : Frame) (m : Option PeerMsg) : State :=
  let x := s.port p
  let f := { f with seq := nth 0 x.sent f.cls }
  let keep := x.keep ++ [⟨f, m⟩]
  let (y, tx) := x.tx p f
  { s.setPort p { y with sent := setNth x.sent f.cls ((f.seq + 1) % 2 ^ 32), keep := keep.drop (keep.length - 64) } with
    out := { s.out with link := s.out.link ++ [tx] } }

/-- A frame of link control sent by a port at once (R408, R410, R411): an idle frame that carries what the port has to say. -/
def State.txLink (s : State) (p : Nat) (nak refuse : Option (Nat × Nat)) (swap : Nat) : State :=
  let (y, tx) := (s.port p).tx p
    { cls := 0, src := s.me, seq := 0, dest := [], ackClass := 0xFF, ackSeq := 0, swap := swap, payload := [], nak := nak, refuse := refuse }
  { s.setPort p y with out := { s.out with link := s.out.link ++ [tx] } }

/-- The frame that carries a message over a port of n lanes (R405, R407). How a message lies in a payload the manual does not give: its length
and its bytes are free values, and it takes one frame (assumption log 25). -/
def State.msgFrame (s : State) (m : PeerMsg) (dest : List Nat) (n : Nat) : Frame :=
  { cls := m.cls, src := s.me, seq := 0, dest := dest, ackClass := 0xFF, ackSeq := 0, swap := 0xFF, nak := none, refuse := none
    payload := (List.range (Config.freeLen s.freeCtr % (752 * n + 1))).map (Config.freeText s.freeCtr) }

/-- A message of this instance put into the outbox of the peer ports (assumption log 5), and sent over each port that it leaves by, for the
destinations behind that port (R82, R405, R408, R409); beat sync goes to whoever is there. -/
def State.send (s : State) (m : PeerMsg) : State :=
  let s := { s with out := { s.out with peer := s.out.peer ++ [m] } }
  match s.portsOf m with
  | [] => s
  | ps => (ps.foldl (fun s p =>
      s.txNew p (s.msgFrame m ((s.destsOf m).filter (fun d => s.route d = some p)) (s.port p).lanes.length) (some m)) s).drawn 1

/-- A response to the host memory port (R396). -/
def State.respond (s : State) (r : Resp) : State := { s with out := { s.out with host := s.out.host ++ [r] } }

/-- The sequencer works: it is out of reset far enough and not halted (R356, R442). -/
def State.alive (s : State) : Bool := s.pin.phase ≥ 6 && !s.pin.halted

/-- Issue of tiles is stopped (R356, R368, R439, R464): QUIESCE in effect, an Amber episode, CRIT, a halt. -/
def State.issueStopped (s : State) : Bool :=
  s.quiesced || s.b oAmberStat 1 || s.pin.hotStop || s.pin.halted

/-- This member is the coordinator of its live group. -/
def State.isCoord (s : State) : Bool := s.f oCommitGroup 55 48 = s.me

/-- The group's size from the live register (R70). -/
def State.groupSize (s : State) : Nat := s.f oCommitGroup 47 40 + 1

/-- The live VOTE_TIMEOUT (R70). -/
def State.voteTimeout (s : State) : Nat := s.f oCommitGroup 31 16

/-- T_sync of a group of a size (R43): max(1, ⌈log8 size⌉). -/
def tSync (size : Nat) : Nat := if size ≤ 8 then 1 else if size ≤ 64 then 2 else 3

/-- A fault as R365 and R366 record it. -/
structure FaultEv where
  cls      : Nat
  detected : Bool              -- captured in FAULT_RECORD as well as logged
  result   : Nat
  unit     : Nat
  queue    : Option Queue
  seq      : Nat
  desc     : Nat               -- 0xFFFF = none
  tile     : Nat
  addr     : Nat
  deriving DecidableEq, Repr

/-- A fault of a unit with no command, descriptor or address. -/
def FaultEv.unitOnly (cls : Nat) (detected : Bool) (result unit : Nat) : FaultEv :=
  ⟨cls, detected, result, unit, none, 0, 0xFFFF, 0, 0⟩

/-- The QUEUE code of a fault entry (R365): 0xF for none. -/
def FaultEv.qCode (e : FaultEv) : Nat := match e.queue with | some q => qIdx q | none => 0xF

/-- The 32 bytes of a log entry (R366). -/
def FaultEv.entry (e : FaultEv) (beat : Nat) : List Byte :=
  leBytes 6 beat ++ leBytes 1 e.cls ++ leBytes 1 e.result ++ leBytes 2 e.unit ++ leBytes 1 e.qCode ++ leBytes 1 0 ++
    leBytes 4 e.seq ++ leBytes 2 e.desc ++ leBytes 2 0 ++ leBytes 4 e.tile ++ leBytes 8 e.addr

/-- The fault log's next entry written (R359, R366). -/
def State.logFault (s : State) (e : FaultEv) : State :=
  let n := s.f oFaultLog 9 0
  let s := s.put (0x3C000000 + 32 * n) (e.entry s.beat)
  (s.setF oFaultLog 9 0 ((n + 1) % 1024)).count oFaultLog 63 32 1

/-- A fault recorded (R365, R366): always in the log, and captured in FAULT_RECORD when it is a detected one. -/
def State.fault (s : State) (e : FaultEv) : State :=
  let s := s.logFault e
  if !e.detected then s
  else if s.b oFaultRecord 63 then s.setB oFaultRecord 62 true
  else
    let w := setFld (setFld (setFld (setFld (setFld 0#64 63 63 1) 55 48 e.cls) 47 40 e.result) 39 36 e.qCode) 31 0 e.seq
    ((s.setReg oFaultRecord w).setReg oFaultBeat (setFld (setFld 0#64 63 55 e.unit) 47 0 s.beat)).setReg oFaultWhere
      (setFld (setFld 0#64 63 48 e.desc) 47 0 e.addr)

/-- A peer port or member lost (R354, R365): class 0x09, result FAULT_PEER_LOST, with the command concerned. -/
def State.peerLost (s : State) (q : Option Queue) (seq unit : Nat) : State :=
  s.fault ⟨0x09, true, 0x22, unit, q, seq, 0xFFFF, 0, 0⟩

/-- The first uncorrectable line of a range, as an address. -/
def State.badAddr (s : State) (a n : Nat) : Nat :=
  (((List.range ((a + n - 1) / 256 + 1 - a / 256)).find? (fun i => s.badLine (a / 256 + i))).map
    (fun i => 256 * (a / 256 + i))).getD a

/-- A lifetime counter advanced (R385): 0 BEATS, 1 RESETS, 2 SNAPS, 3 AMBER, 4 LINE_CE, 5 LINE_UE, 6 SRAM_CE, 7 REPLAYS. -/
def State.life (s : State) (k n : Nat) : State := s.count (oLife k) 63 0 n

/-- An uncorrectable line of the stack (R358, R365): counted, its first place kept, recorded as class 0x0D. The address is 0 for a line that
holds no part of the Parameter Space. -/
def State.stackFault (s : State) (line : Nat) (q : Option Queue) (seq desc tile result addr : Nat) : State :=
  let s := (s.count oCheckStat 31 0 1).life 5 1
  let s := if s.b oCheckLast 63 then s else s.setReg oCheckLast (setFld (setFld 0#64 63 63 1) 47 8 line)
  s.fault ⟨0x0D, true, result, line % 64, q, seq, desc, tile, addr⟩

/-- An uncorrectable line met at an address. -/
def State.lineFault (s : State) (q : Option Queue) (seq desc tile result addr : Nat) : State :=
  s.stackFault (s.stackOfs addr / 256) q seq desc tile result addr

/-- A partial write of the engine, by the command that runs on a queue (R359): into an uncorrectable line it is not performed, and the line is
reported with FAULT_CHECKWORD. -/
def State.putBy (s : State) (q : Queue) (desc a : Nat) (bs : List Byte) : State :=
  if s.mergeBad a bs.length then
    let l := if a % 256 != 0 && s.badLine (a / 256) then a / 256 else (a + bs.length) / 256
    s.lineFault (some q) (((s.run q).map (·.seq)).getD 0) desc 0 0x24 (256 * l)
  else s.put a bs

/-- Counters of a record in a line that cannot be read (R492): the line reported; the addition was not made. -/
def State.recordFault (s : State) (q : Queue) (seq desc tile addr n : Nat) : State :=
  if s.lineBad addr n then s.lineFault (some q) seq desc tile 0x24 addr else s

end Sys2Proof.Machine
end

