-- ==== Sys2Proof/Machine/Descr.lean ====
section
/-! DEFINITION. Tensor descriptors (R168 to R174): fields, positions, where each array lies, validation. -/
namespace Sys2Proof.Machine

/-- A descriptor taken apart (R169). Roles are 0 W, 1 M1, 2 M2, 3 ACC, 4 AUX0, 5 AUX1 (R156). -/
structure Desc where
  idx     : Nat
  rows    : Nat
  cols    : Nat
  variant : Nat
  order   : Bool              -- column groups
  align   : Nat
  stamped : Bool
  slate   : Bool
  lazy    : List Nat          -- lazy index of each role; 0 for W and ACC
  fmt     : List Nat          -- FMT of each role
  bankOfs : Nat
  wBase   : Nat
  m1Base  : Nat
  m2Base  : Nat
  accBase : Nat
  auxBase : Nat
  rsv     : Bool              -- a reserved bit is set
  role    : Nat
  fwdAll  : Bool
  scanLo  : Nat
  step    : Nat
  deriving DecidableEq, Repr

/-- The descriptor that eight words give (R169). -/
def descOf (d : Nat) (ws : DescWords) : Desc :=
  let w := nth 0#64 ws
  { idx := d, rows := fld (w 0) 63 32, cols := fld (w 0) 31 0, variant := fld (w 1) 63 62, order := bit (w 1) 61
    align := fld (w 1) 60 57, stamped := bit (w 1) 56, slate := bit (w 1) 55
    lazy := [0, fld (w 1) 47 44, fld (w 1) 43 40, 0, fld (w 1) 39 36, fld (w 1) 35 32]
    fmt := [fld (w 1) 31 28, fld (w 1) 27 24, fld (w 1) 23 20, fld (w 1) 19 16, fld (w 1) 15 12, fld (w 1) 11 8]
    bankOfs := fld (w 2) 63 48, wBase := fld (w 2) 47 0, m1Base := fld (w 3) 47 0, m2Base := fld (w 4) 47 0
    accBase := fld (w 5) 47 0, auxBase := fld (w 6) 47 0
    rsv := fld (w 1) 54 48 != 0 || fld (w 1) 7 0 != 0 || fld (w 3) 63 48 != 0 || fld (w 4) 63 48 != 0 ||
      fld (w 5) 63 48 != 0 || fld (w 6) 63 48 != 0
    role := fld (w 7) 63 63, fwdAll := bit (w 7) 62, scanLo := fld (w 7) 47 32, step := fld (w 7) 31 0 }

/-- The eight words of descriptor d in the table (R168). -/
def State.descWords (s : State) (d : Nat) : DescWords := wordsFrom (s.bytes (64 * d) 64) 0 8

/-- Descriptor d as the table holds it now. -/
def State.desc (s : State) (d : Nat) : Desc := descOf d (s.descWords d)

/-- Writes of an entry of the write log (R369). -/
def LogWrite.writes : LogWrite → Nat
  | .tile _ _ ds => ds.length
  | .word7 _ _ | .table _ _ _ => 1

/-- The address ranges of an entry of the write log (R369). -/
def LogWrite.ranges : LogWrite → List (Nat × Nat)
  | .tile _ j _ => j.writes
  | .word7 d _ => [(64 * d + 56, 8)]
  | .table a n _ => [(a, n)]

/-- The digests of an entry of the write log (R369). -/
def LogWrite.digests : LogWrite → List (BitVec 32)
  | .tile _ _ ds => ds
  | .word7 _ d | .table _ _ d => [d]

/-- An entry that a replay computes again (R369): not word 7 or a table, and not a fold, whose previous value is gone. -/
def LogWrite.again : LogWrite → Bool
  | .tile r _ _ => !(r.opc = 0x20 || r.opc = 0x21)
  | .word7 _ _ | .table _ _ _ => false

/-- The entries that hold the last 8,192 writes of a log, oldest first (R369). -/
def logTail (l : List LogWrite) : List LogWrite :=
  (l.foldr (fun e (acc : List LogWrite × Nat) => if acc.2 < 8192 then (e :: acc.1, acc.2 + e.writes) else acc) ([], 0)).1

/-- A write put into the write log (R369). -/
def State.logWrite (s : State) (e : LogWrite) : State := { s with res := { s.res with amberLog := logTail (s.res.amberLog ++ [e]) } }

/-- Word 7 of a descriptor rewritten by the command that runs on a queue (R169, R170, R359, R369). -/
def State.setWord7 (s : State) (q : Queue) (d : Nat) (f : Word → Word) : State :=
  let bs := leBytes 8 (f (BitVec.ofNat 64 (s.num (64 * d + 56) 8))).toNat
  (s.putBy q d (64 * d + 56) bs).logWrite (.word7 d (crc32c bs))

/-- A commit or tier table written by the sequencer, in the write log alone where the table is held in another form (R369). -/
def State.logTable (s : State) (a : Nat) (bs : List Byte) : State := s.logWrite (.table a bs.length (crc32c bs))

/-- The words with word 7 as the table holds it now: a latched copy fixes words 0 to 6 (R174). -/
def State.latchedDesc (s : State) (d : Nat) (ws : DescWords) : Desc :=
  descOf d (ws.take 7 ++ [nth 0#64 (s.descWords d) 7])

/-- Row pitch of ORDER 0 (R172). -/
def Desc.pitch (d : Desc) : Nat := roundUp d.cols (2 ^ d.align)

/-- Positions P (R172). -/
def Desc.positions (d : Desc) : Nat :=
  if d.order then cdiv d.rows (2 ^ d.align) * 2 ^ d.align * d.cols else d.rows * d.pitch

/-- Tiles N (R172). -/
def Desc.tiles (d : Desc) : Nat := cdiv d.positions 8192

/-- Position of element (r, j) (R172). -/
def Desc.posOf (d : Desc) (r j : Nat) : Nat :=
  if d.order then
    let h := 2 ^ d.align
    r / h * h * d.cols + j * h + r % h
  else r * d.pitch + j

/-- The element at a position, none for a void position (R172). -/
def Desc.elemAt (d : Desc) (p : Nat) : Option (Nat × Nat) :=
  if d.order then
    let h := 2 ^ d.align
    let g := p / (h * d.cols)
    let q := p % (h * d.cols)
    let r := g * h + q % h
    if d.cols = 0 ∨ d.rows ≤ r then none else some (r, q / h)
  else
    if d.pitch = 0 ∨ d.rows ≤ p / d.pitch ∨ d.cols ≤ p % d.pitch then none else some (p / d.pitch, p % d.pitch)

/-- The row of a position, void or not. -/
def Desc.rowAt (d : Desc) (p : Nat) : Nat :=
  if d.order then let h := 2 ^ d.align; p / (h * d.cols) * h + p % h else p / d.pitch

/-- FMT of a role (R169); 0xF absent. -/
def Desc.fmtIdx (d : Desc) (role : Nat) : Nat := nth 0xF d.fmt role

/-- The role is present in the descriptor. -/
def Desc.has (d : Desc) (role : Nat) : Bool := d.fmtIdx role != 0xF

/-- The storage format of a role, if its FMT names one. -/
def Desc.roleFmt (d : Desc) (role : Nat) : Option Fmt := fmtOf (d.fmtIdx role)

/-- Bytes of n elements of a role. -/
def Desc.elemBytes (d : Desc) (role n : Nat) : Nat :=
  match d.roleFmt role with | some f => packedBytes f n | none => if d.fmtIdx role = 8 then n else 0

/-- The banked roles (R156). -/
def bankedRoles : List Nat := [0, 1, 2, 4, 5]

/-- Distance between the banks in bytes (R169). -/
def Desc.bankStep (d : Desc) : Nat := d.bankOfs * 2 ^ 21

/-- A block of the statistic of KIND 0x04 (R209): the bytes of all row blocks. -/
def statBytes (rows bs : Nat) : Nat :=
  if bs = 0 then 0 else rows / bs * (bs * bs * 4) + (rows % bs) * (rows % bs) * 4

/-- The bit-stream says that a descriptor is a home of a stateful program (R206, R209, R218): what the program makes reaches it, for KIND
0x02 through the KIND 0x03 program that brings it back. -/
def homeOf (t : Tvd) (m : MxProg) (d : Desc) : Bool :=
  if m.kind = 2 then (t.backFrom m).any (fun b => t.serves b d.variant (d.has 5)) else t.serves m d.variant (d.has 5)

/-- The bit-stream says of some descriptors that they are homes of a program. -/
def hasHomes (t : Tvd) (m : MxProg) : Bool :=
  (if m.kind = 2 then t.backFrom m else [m]).any (fun b => t.mxOutRole b.program == some 5 || t.variants.any (fun v => t.serves b v.num false))

/-- The stateful program whose AUX0 layout a descriptor has (R209): the resident one of KIND 0x02 or 0x04 that treats it, where the format
is the KIND's. A program of which the bit-stream names no homes treats those that no variant serves AUX0 of (assumption log 34). -/
def auxProgram (t : Tvd) (v : Variant) (d : Desc) : Option MxProg :=
  let ms := t.programs.filter (fun m => (m.kind = 2 && d.fmtIdx 4 = 1) || (m.kind = 4 && d.fmtIdx 4 = 2))
  match ms.find? (fun m => homeOf t m d) with
  | some m => some m
  | none => if (t.roleSite v 4).isSome then none else ms.find? (fun m => !hasHomes t m)

/-- Bytes of the AUX0 elements of a descriptor (R171, R209). -/
def aux0Bytes (t : Tvd) (v : Variant) (d : Desc) : Nat :=
  match auxProgram t v d with
  | some m => if m.kind = 2 then d.rows * fld m.p0 47 32 * 2 else statBytes d.rows (2 ^ fld m.p0 59 56)
  | none => d.elemBytes 4 d.positions

/-- Bytes of a role's element array in one bank. -/
def roleElemBytes (t : Tvd) (v : Variant) (d : Desc) (role : Nat) : Nat :=
  if role = 4 then aux0Bytes t v d else d.elemBytes role d.positions

/-- Scale bytes of a role in one bank (R171): one for each block in position order. -/
def roleScaleBytes (t : Tvd) (v : Variant) (d : Desc) (role : Nat) : Nat :=
  let b := blkSize (t.roleBlk v role)
  if b = 0 then 0 else cdiv d.positions b

/-- Bank 0 address of a role's elements (R171). -/
def roleBase (t : Tvd) (v : Variant) (d : Desc) (role : Nat) : Nat :=
  if role = 0 then d.wBase else if role = 1 then d.m1Base else if role = 2 then d.m2Base else if role = 3 then d.accBase
  else if role = 4 then d.auxBase
  else if !d.has 4 then d.auxBase
  else
    let e := roundUp (aux0Bytes t v d) 256
    d.auxBase + roundUp (e + (if roleScaleBytes t v d 4 = 0 then 0 else roleScaleBytes t v d 4)) 256

/-- Address of a role's elements in a bank; ACC has one copy (R56). -/
def roleAddr (t : Tvd) (v : Variant) (d : Desc) (role bank : Nat) : Nat :=
  roleBase t v d role + (if role = 3 then 0 else bank * d.bankStep)

/-- Address of a role's scales in a bank (R171). -/
def scaleAddr (t : Tvd) (v : Variant) (d : Desc) (role bank : Nat) : Nat :=
  roleAddr t v d role bank + roundUp (roleElemBytes t v d role) 256

/-- Address of the stamps in a bank (R171). -/
def stampAddr (d : Desc) (bank : Nat) : Nat :=
  d.wBase + bank * d.bankStep + (if d.has 0 then roundUp (d.elemBytes 0 d.positions) 256 else 0)

/-- Address of the Slate copy (R171). -/
def slateAddr (d : Desc) : Nat := d.wBase + 2 * d.bankStep

/-- The arrays of a descriptor as (address, bytes), every bank (R171): elements with scales, stamps, Slate, ACC. -/
def arraysOf (t : Tvd) (v : Variant) (d : Desc) : List (Nat × Nat) :=
  let roleArr := fun role bank => (roleAddr t v d role bank,
    roundUp (roleElemBytes t v d role) 256 + roleScaleBytes t v d role)
  (bankedRoles.filter d.has).flatMap (fun r => [roleArr r 0, roleArr r 1]) ++
  (if d.stamped then [(stampAddr d 0, 2 * d.rows), (stampAddr d 1, 2 * d.rows)] else []) ++
  (if d.slate then [(slateAddr d, 2 * d.positions)] else []) ++
  (if d.has 3 then [(d.accBase, d.elemBytes 3 d.positions)] else [])

/-- A range lies wholly in the fixed region or wholly in the tiered region (R323, R324); tm is TIER_MAP. -/
def rangeOk (tm : Word) (a n : Nat) : Bool :=
  (0xC0000000 ≤ a && a + n ≤ fld tm 48 32 * 2 ^ 21) ||
  (0x10000000000 ≤ a && a + n ≤ 0x10000000000 + fld tm 22 0 * 2 ^ 21)

/-- A range lies wholly in the fixed region (R325). -/
def inFixed (tm : Word) (a n : Nat) : Bool := 0xC0000000 ≤ a && a + n ≤ fld tm 48 32 * 2 ^ 21

/-- Two address ranges meet. -/
def overlap (a n b m : Nat) : Bool := n != 0 && m != 0 && a < b + m && b < a + n

/-- The descriptor stands R173 and R325 under a bit-stream, its variant and a TIER_MAP. -/
def descValid (t : Tvd) (v : Variant) (tm : Word) (d : Desc) : Bool :=
  let roles := [0, 1, 2, 3, 4, 5]
  let siteOk := fun role => (t.roleSites v.num role).all (fun n => d.fmtIdx role != 0xF && d.fmtIdx role = fld (v.site n) 63 60)
  let scaled := v.sites.filter (fun w => fld w 63 60 != 0xF && fld w 59 57 != 0)
  let basesOk := (!(d.has 0 || d.stamped || d.slate) || d.wBase % 256 = 0) && (!d.has 1 || d.m1Base % 256 = 0) &&
    (!d.has 2 || d.m2Base % 256 = 0) && (!d.has 3 || d.accBase % 256 = 0) && (!(d.has 4 || d.has 5) || d.auxBase % 256 = 0)
  d.rows != 0 && d.cols != 0 && d.positions ≤ 2 ^ 40 &&
  (if d.order then 3 ≤ d.align && d.align ≤ 8 else d.align ≤ 13) && !d.rsv &&
  roles.all siteOk && (d.fmtIdx 3 = 2 || d.fmtIdx 3 = 0xF) &&
  (d.bankOfs != 0 || !(bankedRoles.any d.has)) && basesOk &&
  (arraysOf t v d).all (fun (a, n) => n = 0 || rangeOk tm a n) &&
  (!d.has 3 || inFixed tm d.accBase (d.elemBytes 3 d.positions)) &&
  scaled.all (fun w => bit w 56 = d.order && blkSize (fld w 59 57) ≤ 2 ^ d.align)

/-- What evaluation finds about a descriptor that a command names (R165, R171, R173, R492): 0 sound, else the result code. -/
def State.descCheck (s : State) (d : Nat) : Nat :=
  if s.lineBad (64 * d) 64 then 0x24
  else match s.fab.resident.variant? (s.desc d).variant with
    | none => 0x15
    | some v => if descValid s.fab.resident v (s.reg oTierMap) (s.desc d) then 0 else 0x16

/-- The variant of a descriptor; the empty one when it is not resident. -/
def State.variantOf (s : State) (d : Desc) : Variant := (s.fab.resident.variant? d.variant).getD ⟨0, 1, [], [], [], [], false⟩

/-- The bank that is Umber. -/
def Desc.umber (d : Desc) : Nat := 1 - d.role

/-- Rows of a descriptor that have a position in a run (R172, R183), as the first and their number. A run of ORDER 1 covers whole
columns of the groups it meets, so every row of them has a position in it. -/
def Desc.rowsOfSeg (d : Desc) (seg : Nat × Nat) : Nat × Nat :=
  let lo := if d.order then d.rowAt seg.1 / 2 ^ d.align * 2 ^ d.align else d.rowAt seg.1
  let hi := if d.order then (d.rowAt (seg.1 + seg.2 - 1) / 2 ^ d.align + 1) * 2 ^ d.align else d.rowAt (seg.1 + seg.2 - 1) + 1
  (lo, min hi d.rows - lo)

/-- Rows that have a position in a tile (R47, R232). -/
def Desc.rowsInTile (d : Desc) (tile : Nat) : Nat :=
  if d.positions ≤ 8192 * tile then 0 else (d.rowsOfSeg (8192 * tile, min 8192 (d.positions - 8192 * tile))).2

/-- Tiles after which the places of the rows within a tile repeat (R172). -/
def Desc.rowPeriod (d : Desc) : Nat :=
  let n := if d.order then 2 ^ d.align * d.cols else d.pitch
  n / Nat.gcd n 8192

/-- The most rows that have a position in one tile. -/
def Desc.mostRows (d : Desc) : Nat := ((List.range (min d.tiles d.rowPeriod)).map d.rowsInTile).foldl max 0

/-- Bytes of one tile of a role as a ring counts them (R232): elements, scales, and stamps with W, for the tile with the most rows. -/
def tileBytes (t : Tvd) (v : Variant) (d : Desc) (role : Nat) : Nat :=
  let b := blkSize (t.roleBlk v role)
  let st := if role = 0 && d.stamped then 2 * d.mostRows else 0
  roundUp (d.elemBytes role 8192 + (if b = 0 then 0 else 8192 / b) + st) 256

/-- Bytes of one tile of elements in a format with blocks of a size (R232). -/
def fmtTileBytes (f : Fmt) (blk : Nat) : Nat := roundUp (packedBytes f 8192 + (if blk = 0 then 0 else 8192 / blk)) 256

/-- The step that a step number's low 16 bits name in the window that ends at hi (R184): the single one at most 65,535
below it. -/
def stepFromLow (hi low : Nat) : Int := (hi : Int) - (((hi : Int) - low) % 65536)

/-- SCAN_STEP (R184). -/
def Desc.scanStep (d : Desc) : Int := stepFromLow d.step d.scanLo

/-- The full step of a row's stamp (R184). -/
def Desc.stampStep (d : Desc) (stamp : Nat) : Int := stepFromLow d.step stamp

/-- A row's step difference Δ for a step (R183). -/
def Desc.deltaOf (d : Desc) (step stamp : Nat) : Nat := ((step : Int) - d.stampStep stamp).toNat

/-- The fold map entry of the 32 KiB unit at a stack offset (R255). -/
def State.foldMap (s : State) (a : Nat) : Nat := s.num (0x24800000 + 4 * (a / 32768)) 4

/-- The fold map entry written. -/
def State.setFoldMap (s : State) (a step : Nat) : State := s.storeNum (0x24800000 + 4 * (a / 32768)) 4 step

end Sys2Proof.Machine
end

