-- ==== Sys2Proof/Machine/Operands.lean ====
section
/-! DEFINITION. Operands of commands: runs of elements read from and written to arrays (R91 to R95, R172, R257), argument
blocks (R175), index lists (R180, R244), and the fields of a command record (R418, R419). -/
namespace Sys2Proof.Machine

/-- Field of a command record: n bytes from byte lo (R419). -/
def Run.fld (r : Run) (lo n : Nat) : Nat := leAt r.body lo n

/-- The scale codes that n consecutive positions from start read (R171): none without scales. -/
def State.scaleCodes (s : State) (addr blk start n : Nat) : List (Option Nat) :=
  if blk = 0 then List.replicate n none
  else
    let first := start / blk
    let bs := s.bytes (addr + first) (cdiv (start + n) blk - first)
    (List.range n).map (fun i => some (nth 0#8 bs ((start + i) / blk - first)).toNat)

/-- Elements before `start` in the byte that holds it (R91). -/
def Fmt.before (f : Fmt) (start : Nat) : Nat := if f.bits < 8 then start % (8 / f.bits) else 0

/-- The codes of n consecutive elements of an array from position start. -/
def State.readCodes (s : State) (f : Fmt) (addr start n : Nat) : List Nat :=
  let k := f.before start
  (unpackCodes f (s.bytes (addr + packedBytes f (start - k)) (packedBytes f (n + k))) (n + k)).drop k

/-- n consecutive elements of an array from position start, decoded (R83). -/
def State.readElems (s : State) (f : Fmt) (addr scAddr blk start n : Nat) : List Dec :=
  List.zipWith (decodeElem f) (s.readCodes f addr start n) (s.scaleCodes scAddr blk start n)

/-- n consecutive elements that read as +0 without a read (R257). -/
def zeroElems (n : Nat) : List Dec := List.replicate n ⟨kxZero, false, false, false⟩

/-- n consecutive positions of a role from position start, in a bank (R156, R171). -/
def State.readRole (s : State) (t : Tvd) (v : Variant) (d : Desc) (role bank start n : Nat) : List Dec :=
  match d.roleFmt role with
  | none => zeroElems n
  | some f => s.readElems f (roleAddr t v d role bank) (scaleAddr t v d role bank) (blkSize (t.roleBlk v role)) start n

/-- The accumulator for a reader of a step (R257): a tile whose fold map entry differs reads as +0. -/
def State.readAcc (s : State) (d : Desc) (step start n : Nat) : List Dec :=
  if s.foldMap (d.accBase + 4 * start) != step then zeroElems n
  else s.readElems .k32a d.accBase 0 0 start n

/-- Codes written at n consecutive positions from start; `none` keeps what is there (void positions, R172). -/
def State.writeCodes (s : State) (f : Fmt) (addr start : Nat) (cs : List (Option Nat)) : State :=
  let k := f.before start
  let per := if f.bits < 8 then 8 / f.bits else 1
  let n := roundUp (k + cs.length) per
  let old := s.readCodes f addr (start - k) n
  let cs := List.replicate k none ++ cs ++ List.replicate (n - k - cs.length) none
  s.put (addr + packedBytes f (start - k)) (packCodes f (List.zipWith (fun c o => c.getD o) cs old))

/-- Bytes written where a condition on their number holds; the others stay (R172). -/
def State.putWhere (s : State) (a : Nat) (bs : List Byte) (sel : Nat → Bool) : State :=
  let old := s.bytes a bs.length
  s.put a (List.zipWith (fun (i : Nat) (x : Byte × Byte) => if sel i then x.1 else x.2) (List.range bs.length) (bs.zip old))

/-- A run of positions holds an element (R172). -/
def Desc.holdsElem (d : Desc) (start n : Nat) : Bool := (List.range n).any (fun i => (d.elemAt (start + i)).isSome)

/-- n positions with their block scales copied within a role between two banks, codes as they stand (R182). A role of FMT 8 holds one byte an
element. A void position is never written, nor is the scale of a block without an element (R172). -/
def State.copyRun (s : State) (t : Tvd) (v : Variant) (d : Desc) (role src dst start n : Nat) : State :=
  let real := fun i => (d.elemAt (start + i)).isSome
  match d.roleFmt role with
  | none =>
    if d.fmtIdx role = 8 then s.putWhere (roleAddr t v d role dst + start) (s.bytes (roleAddr t v d role src + start) n) real else s
  | some f =>
    let cs := s.readCodes f (roleAddr t v d role src) start n
    let s := s.writeCodes f (roleAddr t v d role dst) start (List.zipWith (fun i c => if real i then some c else none) (List.range n) cs)
    let b := blkSize (t.roleBlk v role)
    if b = 0 then s
    else s.putWhere (scaleAddr t v d role dst + start / b)
      (s.bytes (scaleAddr t v d role src + start / b) (cdiv (start + n) b - start / b)) (fun k => d.holdsElem (b * (start / b + k)) b)

/-- One block's outputs (R95, R123): the elements that are not void, with the codes to write and what they count. -/
def blockCodes (f : Fmt) (sc : Nat) (es : List (Option Enc)) : List (Option Nat) × Nat × Counts :=
  let (_, sc', c) := encodeBlock f (es.filterMap id) sc
  let rewritten := sc' != sc
  (es.map (fun e => e.map (fun e => if rewritten then 0 else e.code)), sc', c)

/-- The blocks of a list of positions, first block first; n bounds their number. -/
def blocksOf {α : Type} (b : Nat) : Nat → List α → List (List α)
  | 0, _ => []
  | _ + 1, [] => []
  | n + 1, l => l.take b :: blocksOf b n (l.drop b)

/-- A run of encoded positions written to an array with its scales (R94, R95): the counts it gives. Each block has its
own scale code in `scs`; blk 0 has none. -/
def State.writeElems (s : State) (f : Fmt) (addr scAddr blk start : Nat) (es : List (Option Enc)) (scs : List Nat) :
    State × Counts :=
  if blk = 0 then
    (s.writeCodes f addr start (es.map (fun e => e.map (·.code))),
     es.foldl (fun c e => match e with | some e => addCounts c (encCounts e) | none => c) zeroCounts)
  else
    let r := List.zipWith (fun b sc => blockCodes f sc b) (blocksOf blk es.length es) scs
    let s := s.writeCodes f addr start (r.flatMap (·.1))
    let first := start / blk
    let old := s.bytes (scAddr + first) r.length
    let bs := List.zipWith (fun (x : List (Option Nat) × Nat × Counts) o =>
      if x.1.any Option.isSome then BitVec.ofNat 8 x.2.1 else o) r old
    (s.put (scAddr + first) bs, r.foldl (fun c x => addCounts c x.2.2) zeroCounts)

/-- A range lies in populated Parameter Space (R323). -/
def State.populated (s : State) (a n : Nat) : Bool :=
  a + n ≤ 0xC0000000 || rangeOk (s.reg oTierMap) a n || a + n ≤ s.f oTierMap 48 32 * 2 ^ 21

/-- Bytes that a command reads at an address that its body gives: those of an unpopulated address are free values, since
no rule gives them (assumption log 3). -/
def State.ext (s : State) (a n : Nat) : List Byte :=
  if s.populated a n then s.bytes a n else (List.range n).map (fun i => Config.freeByte (a + i) s.freeCtr)

/-- The argument block at an address: A0's word and A1 to A15 (R175). -/
def State.argBlock (s : State) (a : Nat) : List KX := (wordsFrom (s.ext a 128) 0 16).map (·.setWidth 34)

/-- An index entry (R180): first row, last row; none when it is dropped. -/
def idxEntry (rows : Nat) (w : Word) : Option (Nat × Nat) :=
  let first := fld w 31 0
  let last := first + fld w 47 32
  if fld w 63 48 != 0 || rows ≤ last then none else some (first, last)

/-- The entries of an index list in list order (R180). -/
def State.idxEntries (s : State) (a n rows : Nat) : List (Option (Nat × Nat)) :=
  (wordsFrom (s.ext a (8 * n)) 0 n).map (idxEntry rows)

/-- The touched set of some entries (R244): sorted by first row, then by length, merged from the front. -/
def touchedRuns (es : List (Nat × Nat)) : List (Nat × Nat) :=
  let sorted := es.insertionSort (fun x y => x.1 < y.1 ∨ (x.1 = y.1 ∧ x.2 ≤ y.2))
  (sorted.foldl (fun acc r =>
    match acc with
    | [] => [r]
    | (a, b) :: t => if r.1 ≤ b + 1 then (a, max b r.2) :: t else r :: (a, b) :: t) []).reverse

/-- Rows in some runs. -/
def runRows (rs : List (Nat × Nat)) : Nat := rs.foldl (fun n r => n + (r.2 + 1 - r.1)) 0

/-- The k-th row of some runs, counted from 0. -/
def nthRow : List (Nat × Nat) → Nat → Option Nat
  | [], _ => none
  | (a, b) :: t, k => if k < b + 1 - a then some (a + k) else nthRow t (k - (b + 1 - a))

/-- A row lies in some runs. -/
def inRuns (rs : List (Nat × Nat)) (r : Nat) : Bool := rs.any (fun x => x.1 ≤ r && r ≤ x.2)

/-- A run without the rows of some ascending runs. -/
def cutRun (x : Nat × Nat) : List (Nat × Nat) → List (Nat × Nat)
  | [] => [x]
  | (a, b) :: t =>
    if b < x.1 then cutRun x t
    else if x.2 < a then [x]
    else (if x.1 < a then [(x.1, a - 1)] else []) ++ (if b < x.2 then cutRun (b + 1, x.2) t else [])

/-- Runs without the rows of other ascending runs. -/
def minusRuns (a b : List (Nat × Nat)) : List (Nat × Nat) := a.flatMap (fun x => cutRun x b)

/-- Single rows as merged runs. -/
def runsOf (rs : List Nat) : List (Nat × Nat) := touchedRuns (rs.map (fun i => (i, i)))

/-- The union of two sets of rows as merged runs. -/
def unionRuns (a b : List (Nat × Nat)) : List (Nat × Nat) := touchedRuns (a ++ b)

/-- The PITCH rule of sparse commands (R179): a power of two up to 8,192 or a multiple of 8,192. -/
def pitchOk (p : Nat) : Bool := (p ≤ 8192 && p != 0 && 2 ^ Nat.log2 p = p) || (8192 < p && p % 8192 = 0)

/-- Tiles of n packed rows (R180). -/
def sparseTiles (pitch rows : Nat) : Nat := if pitch ≤ 8192 then cdiv (rows * pitch) 8192 else rows * (pitch / 8192)

/-- The runs of positions (start, length) of tile k of a sparse command (R180). -/
def sparseSegs (d : Desc) (rs : List (Nat × Nat)) (k : Nat) : List (Nat × Nat) :=
  let p := d.pitch
  if p = 0 then []
  else if p ≤ 8192 then
    let per := 8192 / p
    (List.range per).filterMap (fun i => (nthRow rs (k * per + i)).map (fun r => (r * p, p)))
  else
    let per := p / 8192
    match nthRow rs (k / per) with
    | some r => [(r * p + (k % per) * 8192, 8192)]
    | none => []

/-- The run of positions of tile t of a dense command (R172). -/
def denseSegs (d : Desc) (t : Nat) : List (Nat × Nat) := [(8192 * t, min 8192 (d.positions - 8192 * t))]

end Sys2Proof.Machine
end

