-- ==== Sys2Proof/Machine/Streams.lean ====
section
/-! DEFINITION. Stream rings, the shared pool, tier pages as streams meet them, gates, and the issue of a tile (R229 to
R241, R328 to R333). -/
namespace Sys2Proof.Machine

/-- The variant that has an endpoint of a stream entry as a port. -/
def StreamE.variant (e : StreamE) : Option Nat :=
  if 0x20 ≤ e.consumer ∧ e.consumer < 0x40 then some ((e.consumer - 0x20) / 8)
  else if 0x40 ≤ e.producer ∧ e.producer < 0x60 then some ((e.producer - 0x40) / 8)
  else none

/-- A ring by its number in State.rings. -/
def State.ring (s : State) (k : Nat) : Ring := nth Ring.unused s.rings k

/-- A ring replaced. -/
def State.setRing (s : State) (k : Nat) (r : Ring) : State := { s with rings := setNth s.rings k r }

/-- The ring of a service semaphore pair, 96 to 127 (R230). -/
def svc (pair : Nat) : Nat := pair - 72

/-- The engine that runs a ring (R230). -/
def engineOf (k : Nat) : Nat := if k < 24 then k else 24 + (k - 24) / 4

/-- The rings that an engine runs (R230). -/
def State.ringsOf (s : State) (e : Nat) : List Nat :=
  if e < 24 then [e] else ((List.range 4).map (fun i => 24 + 4 * (e - 24) + i)).filter (fun k => (s.ring k).slots != 0)

/-- The ring of an engine that was active last (R252); the first of them before any was. -/
def State.lastRing (s : State) (e : Nat) : Nat :=
  let ks := s.ringsOf e
  (ks.find? (fun k => (s.ring k).last)).getD (ks.headD e)

/-- The producer has written every tile of the entry (R233). -/
def RingEntry.full (e : RingEntry) : Bool := e.count ≤ e.filled
/-- Entries FILLING or FULL: TAIL − HEAD (R234). -/
def Ring.ahead (r : Ring) : Nat := (r.entries.filter (fun e => e.taken = 0)).length
/-- FILLED: the FULL entries (R234); one that is refilled stays FULL (R362). -/
def Ring.filled (r : Ring) : Nat := (r.entries.filter (fun e => e.taken = 0 && (e.full || e.again))).length
/-- Pool slots held (R231). -/
def Ring.borrowed (r : Ring) : Nat := (r.entries.filter (·.borrowed)).length
/-- TAIL (R234). -/
def Ring.tail (r : Ring) : Nat := (r.retire + r.entries.length) % 32
/-- HEAD (R234). -/
def Ring.head (r : Ring) : Nat := (r.retire + r.entries.length - r.ahead) % 32
/-- The pointers of a ring stand elsewhere than another's: it has made progress (R248). -/
def Ring.beyond (r old : Ring) : Bool := r.tail != old.tail || r.head != old.head || r.retire != old.retire

/-- A ring on which something has been done, which makes it the one of its engine that was active last (R252); its stream has made progress if
a pointer has advanced (R248). -/
def State.moveRing (s : State) (k : Nat) (r : Ring) : State :=
  let old := s.ring k
  let s := (s.ringsOf (engineOf k)).foldl (fun s i => if i = k then s else s.setRing i { s.ring i with last := false }) s
  s.setRing k { r with moved := old.moved || r.beyond old, last := true }

/-- SPACE (R234). -/
def Ring.space (r : Ring) : Nat := r.slots - r.entries.length

/-- Pool slots of a slot size under the resident bit-stream (R231). -/
def State.poolTotal (s : State) (lg : Nat) : Nat :=
  (s.fab.resident.streams.filter (·.slotLog2 == lg)).foldl (fun n e => n + (e.slots - e.rsv)) 0

/-- Pool slots of a slot size on loan. -/
def State.poolUsed (s : State) (lg : Nat) : Nat :=
  ((s.rings.take 24).filter (·.slotLog2 == lg)).foldl (fun n r => n + r.borrowed) 0

/-- The command that uses a ring, as Ring.user holds it. -/
def userId (q : Queue) (seq : Nat) : Nat := 2 ^ 32 * qIdx q + seq + 1

/-- The queue that uses a ring, by the command that used it last. -/
def Ring.queue (r : Ring) : Queue := qOf ((r.user - 1) / 2 ^ 32)

/-- The engine is STOPPED (R245): a producer of its stream group has stopped. -/
def State.engineStopped (s : State) (e : Nat) : Bool :=
  s.stops.any (fun x => x.engine == e || (s.ringsOf e).any (fun k => (s.ring k).user == userId x.q x.seq))

/-- A ring of a stream group (R230, R245): the tiles that a slot holds, and whether the unit at work fills it for a write or a send
to empty. -/
structure GRing where
  ring : Nat
  cap  : Nat
  out  : Bool
  deriving DecidableEq, Repr

/-- The number under which a read stands that has no ring of its own, in a stream group. -/
def noRing : Nat := 56

/-- The number under which a reader of a SNAPSHOT stands that waits for a promotion of somebody else's, and asks for none (R332). -/
def readThrough : Nat := 57

/-- Tiles that a slot of a size holds (R232). -/
def slotTiles (lg tb : Nat) : Nat := if tb = 0 then 1 else max 1 (2 ^ (16 + lg) / tb)

/-- A producer's claim of the entry at TAIL (R231, R235, R247): SPACE, the prefetch depth and a slot, one of its own first and else one
that the pool lends. A stopped stream claims nothing (R245). -/
def State.claim (s : State) (k desc first count : Nat) (lend : Bool) : Option State :=
  let r := s.ring k
  if r.space = 0 ∨ !(r.ahead < r.depth) ∨ s.engineStopped (engineOf k) then none
  else
    let add := fun (s : State) b => s.moveRing k { r with entries := r.entries ++ [⟨desc, first, count, 0, 0, 0, b, r.user, false⟩] }
    if r.entries.length - r.borrowed < r.rsv then some (add s false)
    else if lend && s.poolUsed r.slotLog2 < s.poolTotal r.slotLog2 then some ((add s true).count oStrmPool 63 32 1)
    else none

/-- The entry holds a tile that the consumer has not taken. -/
def RingEntry.holds (e : RingEntry) (desc tile : Nat) : Bool :=
  e.desc = desc && e.first + e.taken ≤ tile && tile < e.first + e.count

/-- The ring holds a tile that its consumer has not taken; a ring without slots holds none back. -/
def State.holdsTile (s : State) (k desc tile : Nat) : Bool :=
  (s.ring k).slots = 0 || (s.ring k).entries.any (fun e => e.holds desc tile)

/-- The ring has a tile ready for its consumer: the entry that holds it is FULL or READING (R233). -/
def State.readyIn (s : State) (k desc tile : Nat) : Bool :=
  (s.ring k).slots = 0 || (s.ring k).entries.any (fun e => e.holds desc tile && e.full)

/-- The consumer of a group is stalled for output space: an output ring has no entry to claim for a tile (R237, R247). -/
def State.outStalled (s : State) (desc tile : Nat) (g : List GRing) : Bool :=
  g.any (fun x => x.out && !s.holdsTile x.ring desc tile && (s.claim x.ring desc tile 1 true).isNone)

/-- Entries claimed for a tile in the rings of a group that hold it nowhere yet (R235); n is the number of tiles of its descriptor. The pool
lends to an input ring only while its consumer has output space (R247). The second part says that every ring holds the tile now. -/
def State.claimAll (s : State) (desc tile n : Nat) (lend : Bool) (g : List GRing) : State × Bool :=
  let stalled := s.outStalled desc tile g
  g.foldl (fun (s, ok) x =>
    if s.holdsTile x.ring desc tile then (s, ok)
    else match s.claim x.ring desc tile (max 1 (min x.cap (n - tile))) (lend && (x.out || !stalled)) with
      | some s => (s, ok)
      | none => (s, false)) (s, true)

/-- What was claimed ahead for a descriptor that its command then passed over is abandoned (R233, R240). -/
def State.dropStale (s : State) (desc : Nat) (g : List GRing) : State :=
  g.foldl (fun s x =>
    let r := s.ring x.ring
    let keep := r.entries.filter (fun e => !(e.user = r.user && e.desc < desc && e.taken = 0 && e.done = 0 && (!x.out || e.filled = 0)))
    let n := r.entries.length - keep.length
    if n = 0 then s else s.moveRing x.ring { r with entries := keep, retire := (r.retire + n) % 32 }) s

/-- A tile taken in the rings of a group (R235, R236): the consumer reads it from an input ring, the unit at work writes it to an
output ring. -/
def State.takeAll (s : State) (desc tile : Nat) (g : List GRing) : State :=
  g.foldl (fun s x =>
    let r := s.ring x.ring
    if r.slots = 0 then s
    else s.moveRing x.ring { r with
      entries := r.entries.map (fun e =>
        if !e.holds desc tile then e else if x.out then { e with filled := e.filled + 1 } else { e with taken := e.taken + 1 })
      lowSeen := r.lowSeen || (!x.out && r.filled < 2) }) s

/-- Ring entries freed from the oldest on while every tile in them has completed (R233, R236). -/
def freeEntries : List RingEntry → Nat → List RingEntry × Nat
  | [], n => ([], n)
  | e :: t, n => if e.count ≤ e.done then freeEntries t (n + 1) else (e :: t, n)

/-- A tile complete in the oldest entry that waits for it. -/
def doneEntry (desc tile : Nat) (out : Bool) : List RingEntry → List RingEntry
  | [] => []
  | e :: t =>
    if e.desc = desc && e.first ≤ tile && tile < e.first + e.count && e.done < e.count then
      { e with done := e.done + 1, taken := if out then e.taken + 1 else e.taken } :: t
    else e :: doneEntry desc tile out t

/-- A tile complete in the rings of a group (R236). An output ring's entry is read as its tiles complete, which is its consumer's read of FILLED
(R238; assumption log 20). -/
def State.doneAll (s : State) (desc tile : Nat) (g : List GRing) : State :=
  g.foldl (fun s x =>
    let r := s.ring x.ring
    if r.slots = 0 then s
    else
      let (es, n) := freeEntries (doneEntry desc tile x.out r.entries) 0
      s.moveRing x.ring { r with
        entries := es, retire := (r.retire + n) % 32
        lowSeen := r.lowSeen || (x.out && r.filled < 2) }) s

/-- The state of an entry that holds a slot (R233). -/
inductive EntryState where
  | filling | full | reading | held
  deriving DecidableEq, Repr

/-- The state of an entry; a tile of it that is replayed is read again (R136), and a refill does not change it (R362). -/
def State.entryState (s : State) (e : RingEntry) : EntryState :=
  if e.taken = 0 then (if e.full || e.again then .full else .filling)
  else if e.taken < e.count || s.jobs.any (fun j => j.again && j.desc = e.desc && e.first ≤ j.tile && j.tile < e.first + e.count) then .reading
  else .held

/-- Slots that pass through a ring within one step of the model: its pointers advance over them. -/
def State.passRing (s : State) (k n : Nat) : State :=
  if n = 0 then s
  else
    let s := s.moveRing k { s.ring k with retire := ((s.ring k).retire + n) % 32 }
    s.setRing k { s.ring k with moved := true }

/-! Tier pages -/

/-- Address of a tiered page (R328). -/
def pageAddr (i : Nat) : Nat := 0x10000000000 + i * 2 ^ 21

/-- The Parameter Space line that a line of the stack holds: the same in the fixed part, the page's in a frame (R323, R324). -/
def State.psLine (s : State) (l : Nat) : Option Nat :=
  let fixed := s.f oTierMap 48 32 * 8192
  if l < fixed then some l
  else if s.f oTierStat 63 47 * 8192 ≤ l then none
  else
    let f := (l - fixed) / 8192
    (s.tier.pages.find? (fun e => e.2.frame = some f)).map (fun e => pageAddr e.1 / 256 + (l - fixed) % 8192)

/-- A tiered page's entry. -/
def State.page (s : State) (i : Nat) : Page := fget pageDflt s.tier.pages i

/-- A tiered page's entry replaced. -/
def State.setPage (s : State) (i : Nat) (p : Page) : State :=
  { s with tier := { s.tier with pages := fset pageDflt s.tier.pages i p } }

/-- The tiered pages that some ranges touch (R323, R328). -/
def State.pagesOf (s : State) (rs : List (Nat × Nat)) : List Nat :=
  let n := s.f oTierMap 22 0
  (rs.flatMap (fun (a, len) =>
    if len = 0 ∨ a < 0x10000000000 ∨ 0x10000000000 + n * 2 ^ 21 ≤ a then []
    else
      let lo := (a - 0x10000000000) / 2 ^ 21
      let hi := (a + len - 1 - 0x10000000000) / 2 ^ 21
      (List.range (hi + 1 - lo)).map (lo + ·))).eraseDups

/-- PINS of a page (R330): one for each stream, from its request to the last tile with data in the page, one for each tile in flight that
nobody requested the page for, one for each host burst that waits for it, and one for each read-through of a unit of it. -/
def State.pins (s : State) (i : Nat) : Nat :=
  let asked := fun (q : Nat) => s.tier.waits.any (fun w => w.page = i && w.q = q)
  (s.jobs.filter (fun j => j.pages.contains i && !asked (qIdx j.q))).length +
    (s.tier.waits.filter (fun w => w.page = i && w.q < 5)).length +
    (s.tier.ops.filter (fun o => match o.use with | .through u => u / 128 = i | _ => false)).length

/-- STATE of a tiered page as its entry codes it (R329). -/
def PageState.code : PageState → Nat
  | .zero => 0 | .flash => 1 | .promoting => 2 | .resident => 3 | .evicting => 4 | .fetching => 5 | .poisoned => 6

/-- The 16 bytes of a tiered page's entry (R329); 0 where the tier has no such page. -/
def State.pageEntry (s : State) (i : Nat) : List Byte :=
  let p := if i < s.f oTierMap 22 0 then s.page i else Page.none
  let w := setFld (setFld (setFld (setFld (setFld (setFld (setFld 0#64 63 60 p.st.code) 59 59 p.dirty.toNat) 58 58 p.keep.toNat) 57 57
    p.demote.toNat) 56 56 p.ref.toNat) 55 40 (s.pins i)) 16 0 (p.frame.getD 0)
  leBytes 8 w.toNat ++ leBytes 8 p.digest.toNat

/-- A tiered page's entry written: put into the write log (R369). -/
def State.pageLogged (s : State) (i : Nat) : State := s.logTable (0x30000000 + 16 * i) (s.pageEntry i)

/-- A page is Crimson (R329). -/
def Page.crimson (p : Page) : Bool := p.st = .fetching || p.st = .poisoned

/-- A page is held in a frame and serves accesses (R329). -/
def Page.served (p : Page) : Bool := p.st = .resident || p.st = .evicting

/-- An eviction under way cancelled (R331): programs already issued complete for nothing, the others are not issued. -/
def State.cancelEvict (s : State) (i : Nat) : State :=
  let mine := fun (o : BridgeOp) => match o.use with | .evict p _ => p == i | _ => false
  { s with tier := { s.tier with
      ops := s.tier.ops.map (fun (o : BridgeOp) => if mine o then { o with use := .void } else o)
      backlog := s.tier.backlog.filter (fun o => !mine o)
      placed := s.tier.placed.filter (fun x => x.1 != i) } }

/-- A request for a page (R239, R331, R332): a pin cancels an eviction, and puts off that of a page with DEMOTE set until it is gone; a ZERO or
FLASH page is put up for promotion. `who` tells the streams of a queue, or the bursts of the host, apart. -/
def State.request (s : State) (i q who : Nat) : State :=
  let p := s.page i
  let s := if p.st = .evicting then
      ((s.cancelEvict i).setPage i { p with st := .resident, dirty := true, held := p.demote }).count oTierCount 7 0 1
    else if p.demote && !p.held && q < 5 then s.setPage i { p with held := true }
    else s
  if s.tier.waits.any (fun w => w.page = i && w.q = q && w.who = who) then s
  else { s with tier := { s.tier with waits := s.tier.waits ++ [⟨i, s.beat, q, false, who⟩] } }

/-- An access sets REF, a write sets DIRTY (R329, R334). -/
def State.touch (s : State) (write : Bool) (i : Nat) : State :=
  let p := s.page i
  s.setPage i { p with ref := true, dirty := p.dirty || write }

/-- A queue's wait on a page dropped. -/
def State.unwait (s : State) (q : Nat) (is : List Nat) : State :=
  { s with tier := { s.tier with waits := s.tier.waits.filter (fun w => !(w.q = q && is.contains w.page)) } }

/-- Requests that have waited beyond TIMEOUT given up (R333): the promotion of their pages goes on. -/
def State.giveUp (s : State) (q : Nat) (is : List Nat) : State :=
  let mine := fun (w : Wait) => w.q = q && is.contains w.page
  let on := (is.filter (fun i => !(s.page i).served && s.tier.waits.any (fun w => mine w && w.page = i) &&
    !s.tier.waits.any (fun w => w.q = 7 && w.page = i))).map (fun i => (⟨i, s.beat, 7, false, 0⟩ : Wait))
  { s with tier := { s.tier with waits := s.tier.waits.filter (fun w => !mine w) ++ on } }

/-- What the pages of a tile allow (R239, R245, R246, R333): go, wait, or an absent tile with its result. -/
inductive PageGo where
  | go
  | wait
  | absent (result : Nat)
  deriving DecidableEq, Repr

/-- The pages of a tile as its streams meet them; a missing page is requested. -/
def State.pageGo (s : State) (q : Nat) (rd wr : List (Nat × Nat)) : State × PageGo × List Nat :=
  let is := s.pagesOf (rd ++ wr)
  if is.any (fun i => (s.page i).st = .poisoned) then (s.unwait q is, .absent 0x21, [])
  else if s.tier.waits.any (fun w => w.q = q && w.late && is.contains w.page) then (s.giveUp q is, .absent 0x23, [])
  else
    let miss := is.filter (fun i => !(s.page i).served)
    if miss.isEmpty then
      let s := s.unwait q is
      let evict := is.filter (fun i => (s.page i).st = .evicting)
      let s := evict.foldl (fun s i => s.request i q noRing) s
      let s := s.unwait q is
      let ws := s.pagesOf wr
      (is.foldl (fun s i => s.touch (ws.contains i) i) s, .go, is)
    else (miss.foldl (fun s i => s.request i q noRing) s, .wait, [])

/-! Gates -/

/-- The tiles of a queue's command that are in flight. -/
def State.jobsOf (s : State) (q : Queue) (seq : Nat) : List Job := s.jobs.filter (fun j => j.q = q && j.seq = seq)

/-- The completed position of a reader's stream lies beyond tile t of descriptor d (R241): it has passed the tile. -/
def State.passed (s : State) (q : Queue) (r : Run) (d t : Nat) : Bool :=
  (r.issued || r.aborting || r.desc > d || (r.desc = d && r.tile > t)) &&
  !((s.jobsOf q r.seq).any (fun j => j.desc = d && j.tile ≤ t))

/-- A sweep may write tile t of descriptor d's bank (R20, R195, R298, R373, R380): every reader bound to it has passed. -/
def State.bankFree (s : State) (d bank t : Nat) : Bool :=
  [Queue.gq, Queue.sq].all (fun q => match s.run q with
    | some r => !(r.banks.contains (d, bank)) || s.passed q r d t
    | none => true) &&
  (match s.cyan.bound with
   | some (_, _, bs) => !bs.contains (d, bank)
   | none => true) && !s.cyan.catchups.any (fun c => c.banks.contains (d, bank))

/-- How far the sweep has read a descriptor, changed. -/
def State.setSwept (s : State) (d : Nat) (f : Swept → Swept) : State :=
  let old := (s.step.swept.find? (·.desc == d)).getD ⟨d, 0, false, []⟩
  { s with step := { s.step with swept := s.step.swept.filter (·.desc != d) ++ [f old] } }

/-- Tile t of descriptor d marked as read by the sweep (R81). -/
def State.markSwept (s : State) (d t : Nat) : State :=
  s.setSwept d (fun w => if t = w.upTo then { w with upTo := t + 1 } else { w with rows := w.rows ++ [t] })

/-- The sweep of descriptor d has ended (R81). -/
def State.sweptAll (s : State) (d : Nat) : State := s.setSwept d (fun w => { w with all := true })

/-! Issue -/

/-- The lanes in use (R109, R113): the L in force, and never more than ACTIVE_MAX. DESIGN CHOICE (assumption log 40): an ACTIVE_MAX that falls
inside a beat narrows the lanes at once, while L_RUN follows at the boundary. -/
def State.lanes (s : State) : Nat := max 1 (min s.fab.curL (s.f oFabStat 23 12))

/-- How an attempt to issue a tile ended. -/
inductive Issued where
  | sent
  | tierWait
  | ringWait
  deriving DecidableEq, Repr

/-- The stream entries whose rings meet bytes lo to hi of the bit-stream ring area. The rings lie in it one after the other in the
order of the entries; matrix staging and then the service rings, in the order of R230, follow (assumption log 14). -/
def bankEntries (t : Tvd) (lo hi : Nat) : List StreamE :=
  ((List.range t.streams.length).filter (fun n =>
    let size := fun (e : StreamE) => e.slots * 2 ^ (16 + e.slotLog2)
    let at_ := ((t.streams.take n).map size).foldl (· + ·) 0
    overlap at_ ((t.streams.drop n).headD ⟨0, 0, 0, 0, 0, 0, 0⟩ |> size) lo (hi - lo))).filterMap (fun n => t.streams[n]?)

/-- The variants whose rings use some bytes of the bit-stream ring area. -/
def bankVariants (t : Tvd) (lo hi : Nat) : List Nat := ((bankEntries t lo hi).filterMap StreamE.variant).eraseDups

/-- First byte of the rings of each service engine within their 8 MiB, in KiB, with their size (R230). -/
def serviceAt : List (Nat × Nat × Nat) :=
  [(24, 0, 768), (25, 768, 768), (26, 1536, 2560), (27, 4096, 768), (28, 4864, 1024), (29, 5888, 768), (30, 6656, 768), (31, 7424, 768)]

/-- The service engines that serve an opcode (R230). -/
def serviceOf (opc : Nat) : List Nat :=
  (if opc = 0x20 ∨ opc = 0x21 ∨ opc = 0x22 then [24] else if opc = 0x10 ∨ opc = 0x11 then [25]
   else if opc = 0x40 ∨ opc = 0x41 then [27, 28] else if opc = 0x42 ∨ opc = 0x43 then [29]
   else if opc = 0x44 ∨ opc = 0x45 ∨ opc = 0x47 then [30] else []) ++
  (if opc = 0x11 ∨ opc = 0x21 ∨ opc = 0x31 then [26] else [])

/-- A command uses a logical bank. -/
def State.usesBank (s : State) (r : Run) (b : Nat) : Bool :=
  if b < 48 then (r.opc = 0x30 || r.opc = 0x31) && (bankVariants s.fab.resident (b * 2 ^ 20) (b * 2 ^ 20 + 2 ^ 20)).contains (s.desc r.desc).variant
  else if b < 56 then r.opc = 0x32
  else serviceAt.any (fun (k, at_, n) => (serviceOf r.opc).contains k && overlap at_ n ((b - 56) * 1024) 1024)

/-- What a command leaves in its rings when it ends: entries claimed ahead are abandoned, its stops and its pins are over. -/
def State.leaveRings (s : State) (q : Queue) (seq : Nat) : State :=
  let id := userId q seq
  let s := if s.tier.waits.any (fun w => w.q = qIdx q) then
      { s with tier := { s.tier with waits := s.tier.waits.filter (fun w => w.q != qIdx q) } }
    else s
  if s.stops.isEmpty && !s.rings.any (fun r => r.entries.any (·.user = id)) then s
  else { s with
    stops := s.stops.filter (fun (x : Stop) => !(x.q = q && x.seq = seq))
    rings := s.rings.map (fun (r : Ring) =>
      let keep := r.entries.filter (fun (e : RingEntry) => e.user != id)
      if keep.length = r.entries.length then r
      else { r with entries := keep, retire := (r.retire + (r.entries.length - keep.length)) % 32, moved := true }) }

/-- A command's first use of its rings: the prefetch depth starts anew (R238), unless it is pinned (R251). -/
def State.startRings (s : State) (q : Queue) (seq : Nat) (g : List GRing) : State :=
  g.foldl (fun s x =>
    let y := s.ring x.ring
    if y.slots = 0 || y.user = userId q seq then s
    else s.setRing x.ring { y with
      user := userId q seq
      depth := if y.pinned && y.depth != 0 then y.depth else min 4 (y.slots - 1) }) s

/-- The input rings of a group whose consumer finds no FULL entry for a tile (R238): the miss counts toward the depth unless the
producer is stopped. -/
def State.starve (s : State) (desc tile : Nat) (g : List GRing) : State :=
  g.foldl (fun s x =>
    if x.out || s.readyIn x.ring desc tile then s
    else s.setRing x.ring { s.ring x.ring with
      starved := true, thin := (s.ring x.ring).thin || !s.engineStopped (engineOf x.ring) }) s

/-- What the producers of a command read of a descriptor: how many tiles it has, and the ranges that the producer of a ring reads for a
tile of it; with several output rings, the ranges that the consumer of each writes. -/
structure Feed where
  tiles : Nat
  reads : Nat → Nat → List (Nat × Nat)
  outs  : Nat → Nat → List (Nat × Nat) := fun _ _ => []

/-- A page lets a stream go on: it is served, or the tile that needs it is absent (R239, R246, R333). -/
def State.pageReady (s : State) (q i : Nat) : Bool :=
  (s.page i).served || (s.page i).st = .poisoned || s.tier.waits.any (fun w => w.page = i && w.q = q && w.late)

/-- How many of at most n tiles, from one on, a producer can write now. -/
def State.writable (s : State) (q : Nat) (rd : Nat → List (Nat × Nat)) : Nat → Nat → Nat
  | 0, _ => 0
  | n + 1, t => if (s.pagesOf (rd t)).all (s.pageReady q) then 1 + s.writable q rd n (t + 1) else 0

/-- The entries of a ring with the tiles of a descriptor that its producer can write, in entry order (R235). -/
def State.fillList (s : State) (q desc : Nat) (rd : Nat → List (Nat × Nat)) : List RingEntry → List RingEntry
  | [] => []
  | e :: t =>
    if e.full then e :: s.fillList q desc rd t
    else if e.desc != desc then e :: t
    else
      let n := s.writable q rd (e.count - e.filled) (e.first + e.filled)
      let e := { e with filled := e.filled + n }
      if e.full then e :: s.fillList q desc rd t else e :: t

/-- The producer of an input ring fills its entries of a descriptor. It requests the pages of the tile that it cannot write and of the
next 2D entries beyond TAIL, and holds them (R239, R330). -/
def State.fill (s : State) (q : Queue) (desc n : Nat) (rd : Nat → List (Nat × Nat)) (x : GRing) : State :=
  let r := s.ring x.ring
  if r.slots = 0 then s
  else
    let es := s.fillList (qIdx q) desc rd r.entries
    let s := if es = r.entries then s else s.setRing x.ring { r with entries := es }
    if s.f oTierMap 22 0 = 0 then s
    else
      let mine := es.filter (·.desc == desc)
      let next := (mine.getLast?.map (fun e => e.first + e.count)).getD 0
      let ahead := (List.range (min (2 * r.depth * x.cap) (n - next))).map (next + ·)
      let here := mine.flatMap (fun e => (List.range (e.count - e.done)).map (e.first + e.done + ·))
      (s.pagesOf ((here ++ ahead).flatMap rd)).foldl (fun s i => s.request i (qIdx q) x.ring) s

/-- Every input ring of a group filled for a descriptor. -/
def State.fillAll (s : State) (q : Queue) (desc : Nat) (fd : Feed) (g : List GRing) : State :=
  (g.filter (fun x => !x.out)).foldl (fun s x => s.fill q desc fd.tiles (fd.reads x.ring) x) s

/-- The logical lane that the next tile's first position enters (R110): the positions of the tiles in flight run on without a gap; with none in
flight it is lane 0 (assumption log 20). -/
def State.entryLane (s : State) : Nat := if s.jobs.isEmpty then 0 else s.fab.nextLane % s.lanes

/-- The logical lane of a position of a tile (R110, R113): the one it entered when the tile issued. -/
def Job.laneOf (j : Job) (pos : Nat) : Nat := (j.lane + pos) % max 1 j.lanes

/-- A tile enters flight; n positions of it pass through the lanes. -/
def State.addJob (s : State) (j : Job) (n : Nat) : State :=
  let l := s.entryLane
  { s with jobs := s.jobs ++ [{ j with lane := l, lanes := s.lanes }], fab := { s.fab with nextLane := (l + n) % s.lanes } }

/-- The pages of a tile requested by the streams that read and write them (R330, R332). -/
def State.askTile (s : State) (q : Queue) (tile : Nat) (fd : Feed) (wr : List (Nat × Nat)) (g : List GRing) : State :=
  let ask := fun (s : State) (ps : List Nat) (who : Nat) => ps.foldl (fun s i => s.request i (qIdx q) who) s
  let outs := g.filter (·.out)
  let s := g.foldl (fun s x => ask s (s.pagesOf (if x.out then fd.outs x.ring tile else fd.reads x.ring tile)) x.ring) s
  let named := s.pagesOf (outs.flatMap (fun x => fd.outs x.ring tile))
  ask s ((s.pagesOf wr).filter (fun i => !named.contains i)) ((outs.head?.map (·.ring)).getD noRing)

/-- A tile issued (R235, R239): its rings hold it ready, its pages are pinned, and it is in flight. fd says what the producers read, wr the
ranges that it writes, g its stream group, n its positions. -/
def State.issue (s : State) (q : Queue) (r : Run) (kind desc tile n : Nat) (ws : DescWords) (fd : Feed) (wr : List (Nat × Nat))
    (g : List GRing) : State × Issued :=
  match ((s.startRings q r.seq g).dropStale desc g).claimAll desc tile fd.tiles (!r.issued) g with
  | (s, false) => ((s.fillAll q desc fd g).starve desc tile g, .ringWait)
  | (s, true) =>
    let s := s.fillAll q desc fd g
    let is := s.pagesOf ((g.filter (fun x => !x.out)).flatMap (fun x => fd.reads x.ring tile) ++ wr)
    let s := if is.isEmpty then s else s.askTile q tile fd wr g
    if !is.all (s.pageReady (qIdx q)) || !g.all (fun x => x.out || s.readyIn x.ring desc tile) then (s.starve desc tile g, .tierWait)
    else
      let late := is.filter (fun i => !(s.page i).served && (s.page i).st != .poisoned)
      let f : Nat := if is.any (fun i => (s.page i).st = .poisoned) then 0x21 else if late.isEmpty then 0 else 0x23
      let s := (s.takeAll desc tile g).giveUp (qIdx q) late
      let s := if f = 0x21 then s.count oStrmStopped 63 32 1 else s
      let ws' := s.pagesOf wr
      let s := if f = 0 then (is.foldl (fun s i => s.touch (ws'.contains i) i) s).chanGet ((g.filter (fun x => !x.out)).flatMap (fun x =>
        fd.reads x.ring tile)) else s
      (s.addJob { q := q, seq := r.seq, desc := desc, tile := tile, kind := kind, words := ws, fault := f
                  pages := is, writes := wr, lane := 0, lanes := 0, again := false } n, .sent)

/-- The pages of a tile that has completed are let go by each stream (R239, R330), but for those that it still needs, given with its ring. -/
def State.letGo (s : State) (j : Job) (more : List (Nat × Nat)) : State :=
  let flying := fun i => s.jobs.any (fun x => x.q = j.q && x.seq = j.seq && x.pages.contains i)
  { s with tier := { s.tier with waits := s.tier.waits.filter (fun w =>
      !(w.q = qIdx j.q && j.pages.contains w.page) || flying w.page || more.contains (w.page, w.who)) } }

/-- STATE of an engine as STRM_STAT reports it (R252), where `gated` says that its command waits on a gate, `tier` that it waits on a
page, and `bar` that its queue waits on a BARRIER. -/
def State.engineState (s : State) (e : Nat) (gated tier bar : Bool) : Nat :=
  let r := s.ring (s.lastRing e)
  let q := r.queue
  if s.f oStrmWdog 55 48 = e && s.b oStrmWdog 63 && r.entries.isEmpty then 7
  else if s.engineStopped e then 5
  else if r.user != 0 && bar then 4
  else match s.run q with
    | some x =>
      if r.user != userId q x.seq then 0
      else if gated then 3
      else if tier then 2
      else if x.issued then 6
      else 1
    | none => 0

/-- The STRM_STAT word of an engine but for STATE (R252): the ring that was active last; STARVE_BEATS is kept in the live register. -/
def State.strmStat (s : State) (e : Nat) : Word :=
  let r := s.ring (s.lastRing e)
  let w := setFld (setFld (setFld (s.reg (oStrmStat e)) 63 59 r.tail) 58 54 r.head) 53 49 r.retire
  setFld (setFld w 48 44 r.depth) 43 40 r.borrowed

/-- The STRM_POOL word (R249); GRANTS is kept in the live register. -/
def State.poolWord (s : State) : Word :=
  let tot := (List.range 5).foldl (fun n i => n + s.poolTotal i) 0
  let used := (List.range 5).foldl (fun n i => n + s.poolUsed i) 0
  setFld (setFld (s.reg oStrmPool) 31 16 (tot - used)) 15 0 tot

end Sys2Proof.Machine
end

