-- ==== Sys2Proof/Machine/Queue.lean ====
section
/-! DEFINITION. The four command queues (R16, R17, R418 to R426, R493): records, checks, completion, and the driver that
every queue command's row runs under. -/
namespace Sys2Proof.Machine

/-- The opcodes of a queue (R16, R420). -/
def opcOk (q : Queue) (opc : Nat) : Bool :=
  opc = 0x01 || (match q with
    | .gq => opc = 0x10 || opc = 0x11
    | .aq => 0x20 ≤ opc && opc ≤ 0x22
    | .uq => 0x30 ≤ opc && opc ≤ 0x34
    | .sq => (0x40 ≤ opc && opc ≤ 0x47) || opc = 0x4F)

/-- The fields that a body lists, as (first byte, bytes, bits used of the last byte) (R72, R80, R176, R179, R194, R204,
R242, R260, R266, R269, R296, R306, R316, R335, R372, R379, R419). -/
def bodyFields (opc : Nat) : List (Nat × Nat × Nat) :=
  if opc = 0x01 then [(8, 5, 0xFF), (13, 1, 0x01), (16, 4, 0xFF)]
  else if opc = 0x10 then [(8, 9, 0xFF), (17, 1, 0x1F), (24, 6, 0xFF)]
  else if opc = 0x11 then [(8, 6, 0xFF), (16, 1, 0xFF), (17, 1, 0x1F), (24, 6, 0xFF), (32, 4, 0xFF), (40, 6, 0xFF)]
  else if opc = 0x20 then [(8, 12, 0xFF), (20, 1, 0x03), (24, 6, 0xFF)]
  else if opc = 0x21 then [(8, 10, 0xFF), (20, 1, 0x03), (24, 6, 0xFF), (32, 4, 0xFF), (40, 6, 0xFF)]
  else if opc = 0x22 then [(8, 12, 0xFF), (20, 1, 0x01)]
  else if opc = 0x30 then [(8, 8, 0xFF), (16, 6, 0xFF), (24, 1, 0x01)]
  else if opc = 0x31 then [(8, 6, 0xFF), (16, 6, 0xFF), (24, 1, 0x01), (28, 4, 0xFF), (32, 6, 0xFF)]
  else if opc = 0x32 then [(8, 5, 0xFF), (13, 1, 0x03), (14, 10, 0xFF), (24, 6, 0xFF), (32, 8, 0xFF), (40, 8, 0xFF)]
  else if opc = 0x33 then [(8, 4, 0xFF), (12, 1, 0x03), (14, 2, 0xFF), (16, 8, 0xFF)]
  else if opc = 0x34 then [(8, 4, 0xFF), (12, 1, 0x01)]
  else if opc = 0x40 ∨ opc = 0x41 then [(8, 2, 0xFF), (12, 1, 0x01)]
  else if opc = 0x42 then [(8, 12, 0xFF), (20, 1, 0x1F)]
  else if opc = 0x43 then [(8, 10, 0xFF), (20, 1, 0x03)]
  else if opc = 0x44 then [(8, 6, 0xFF), (14, 1, 0x01), (16, 2, 0xFF), (24, 6, 0xFF), (32, 6, 0xFF)]
  else if opc = 0x45 then [(8, 6, 0xFF), (24, 6, 0xFF), (32, 6, 0xFF)]
  else if opc = 0x46 then [(8, 6, 0xFF), (16, 5, 0xFF)]
  else if opc = 0x47 then [(8, 5, 0xFF), (13, 1, 0x03), (16, 4, 0xFF), (20, 1, 0x03)]
  else []

/-- The bits of a record that may be nonzero: OPC, TAG, SEQ and the body's fields (R419). -/
def recordMask (opc : Nat) : Nat :=
  bodyFields opc |>.foldl (fun m (lo, n, last) => m ||| ((last * 256 ^ (n - 1) + (256 ^ (n - 1) - 1)) <<< (8 * lo)))
    0xFFFFFFFFFFFF00FF

/-- A reserved bit of a record is nonzero (R422 reason 3): a byte that the body does not list, a bit that a field marks
as 0, or a field that must be 0 in the case at hand. -/
def reservedSet (t : Tvd) (opc : Nat) (bs : List Byte) : Bool :=
  let v := ofLe bs
  v &&& recordMask opc != v ||
    (opc = 0x01 && leAt bs 13 1 % 2 = 0 && leAt bs 16 4 != 0) ||
    (opc = 0x32 && leAt bs 8 4 != 0 && ((t.prog? (leAt bs 12 1)).map (·.kind) == some 5))

/-- The record of a SEQ (R418). -/
def State.record (s : State) (q : Queue) (seq : Nat) : List Byte := s.bytes (s.recAddr q seq) 64

/-- The next SEQ of a queue. -/
def State.nextSeq (s : State) (q : Queue) : Nat := (s.doneSeq q + 1) % 2 ^ 32

/-- A record waits at the head of the queue: the queue is enabled and a posted SEQ has not completed. -/
def State.waiting (s : State) (q : Queue) : Bool := s.b (oQStat (qIdx q)) 0 && s.posted q != s.doneSeq q

/-- PHASE of a completion record (R423). -/
def State.phaseOf (s : State) (q : Queue) (seq : Nat) : Nat := 1 - sub32 seq (s.baseSeq q) / s.entries q % 2

/-- The 32 bytes of a completion record (R423). -/
def compBytes (seq opc result cflags ext beat tag : Nat) (dw : List Nat) : List Byte :=
  leBytes 4 seq ++ leBytes 1 opc ++ leBytes 1 result ++ leBytes 1 cflags ++ leBytes 1 (min ext 255) ++ leBytes 6 beat ++
    leBytes 2 tag ++ (List.range 4).flatMap (fun i => leBytes 4 (min (nth 0 dw i) 0xFFFFFFFF))

/-- A command completed (R423, R424): its record written, DONE_SEQ advanced over it. The result of a COMMIT stands in
COMMIT_STATE too (R78). -/
def State.finish (s : State) (q : Queue) (seq opc tag result : Nat) (best : Bool) (ext beat : Nat) (dw : List Nat) : State :=
  let s := s.putBy q 0xFFFF (s.compAddr q seq) (compBytes seq opc result (best.toNat + 128 * s.phaseOf q seq) ext beat tag dw)
  let s := s.setF (oQDoneSeq (qIdx q)) 31 0 seq
  let s := if best then s.count (oQStat (qIdx q)) 63 32 1 else s
  let s := s.leaveRings q seq
  let s := if q = .uq ∧ opc = 0x33 then s.setF oCommitState 23 16 result else s
  s.setRun q none

/-- An UPDATE, UPDATE_SPARSE or MATRIX of the uncommitted step ended before its work was done: a failure that may forbid the commit
(R74, assumption log 28). -/
def State.noteFailed (s : State) (q : Queue) (r : Run) (result : Nat) : State :=
  if q = .uq && 0x30 ≤ r.opc && r.opc ≤ 0x32 && r.fld 8 4 = (s.stepNow + 1) % 2 ^ 32 && [0x15, 0x16, 0x22, 0x24, 0x2F].contains result then
    { s with step := { s.step with failed := result } }
  else s

/-- A running command completed at the present beat. -/
def State.complete (s : State) (q : Queue) (r : Run) (result : Nat) (dw : List Nat) : State :=
  (s.noteFailed q r result).finish q r.seq r.opc r.tag result r.best r.ext s.beat dw

/-- What R422 finds in a record: none when it passes, else the reason and the SEQ found. -/
def State.recordBad (s : State) (q : Queue) (seq : Nat) : Option (Nat × Nat) :=
  let bs := s.record q seq
  if s.lineBad (s.recAddr q seq) 64 then some (4, 0)
  else if leAt bs 4 4 != seq then some (1, leAt bs 4 4)
  else if !opcOk q (leAt bs 0 1) then some (2, 0)
  else if reservedSet s.fab.resident (leAt bs 0 1) bs then some (3, 0)
  else none

/-- What R422 finds in the record at the head. -/
def State.headFault (s : State) (q : Queue) : Option (Nat × Nat) := s.recordBad q (s.nextSeq q)

/-- The record at the head completed ABORTED for a reason of R422. -/
def State.abortHead (s : State) (q : Queue) (reason found : Nat) : State :=
  let seq := s.nextSeq q
  let bs := s.record q seq
  if reason = 4 then
    (s.lineFault (some q) seq 0xFFFF 0 0x2F (s.recAddr q seq)).finish q seq 0 0 0x2F false 0 s.beat [0x80000004]
  else
    s.finish q seq (leAt bs 0 1) (leAt bs 2 2) 0x2F false 0 s.beat
      [0x80000000 + reason, if reason = 1 then found else 0]

/-- Records that fail R422 completed from the head on, until one passes; n bounds how many. -/
def State.settleFrom (s : State) (q : Queue) : Nat → State
  | 0 => s
  | n + 1 =>
    if (s.run q).isSome || !s.waiting q then s
    else match s.headFault q with
      | none => s
      | some (reason, found) => (s.abortHead q reason found).settleFrom q n

/-- The head of a queue brought to a record that passes R422, if there is one. A halted sequencer completes nothing
(R356). -/
def State.settleHead (s : State) (q : Queue) : State :=
  if s.pin.halted then s else s.settleFrom q (sub32 (s.posted q) (s.doneSeq q))

/-- A record as a command about to be evaluated. -/
def State.runAt (s : State) (q : Queue) (seq : Nat) : Run :=
  let bs := s.record q seq
  { seq := seq, opc := leAt bs 0 1, tag := leAt bs 2 2, body := bs, args := [], step := 0, banks := [], desc := 0, tile := 0
    latched := none, rows := [], copy := [], behind := [], phase := 0, issued := false, t := Tally.zero, ext := 0, best := false, began := s.beat
    gated := 0, bound := false, aborting := false, taps := [], info := [], unread := [] }

/-- The record at the head as a command about to be evaluated. -/
def State.newRun (s : State) (q : Queue) : Run := s.runAt q (s.nextSeq q)

/-- The live reservation of a queue in shares (R33). -/
def State.shareOf (s : State) (q : Queue) : Nat := fld (s.reg oProfileShares) (8 * qIdx q + 15) (8 * qIdx q + 8)

/-- Tiles of some descriptors. -/
def State.tilesIn (s : State) (first last : Nat) : Nat :=
  (List.range (last + 1 - first)).foldl (fun n i => n + (s.desc (first + i)).tiles) 0

/-- A command runs best-effort (R54): no reservation, or work on a queue with a deadline (R40) that no deadline admitted by the CHECK in force
covers. What SNAPSHOTs have taken since the last flip counts together (R47); a probe lies outside every deadline (R216, R218). -/
def State.bestEffort (s : State) (q : Queue) (r : Run) : Bool :=
  let inSet := fun (a b : Nat) => s.f oProfileWork 63 48 ≤ a && b ≤ s.f oProfileWork 47 32
  let checked := s.stage.inForce.lenK != 0
  let step := checked && s.f oProfileDeadlines 59 40 != 0
  s.shareOf q = 0 ||
  (if r.opc = 0x30 then !(step && inSet (r.fld 12 2) (r.fld 14 2))
   else if r.opc = 0x31 then !(step && inSet (r.fld 12 2) (r.fld 12 2))
   else if r.opc = 0x32 then !(step && inSet (r.fld 14 2) (r.fld 16 2)) || (s.fab.resident.prog? (r.fld 12 1)).map (·.kind) = some 5
   else if r.opc = 0x33 ∨ r.opc = 0x34 then !step
   else if r.opc = 0x40 ∨ r.opc = 0x41 then !checked || s.f oProfileDeadlines 39 20 = 0
   else if r.opc = 0x42 then
     !checked || !inSet (r.fld 12 2) (r.fld 14 2) || (r.fld 20 1 % 2 = 1 && !s.b oProfileSnap 16) ||
       s.f oProfileSnap 43 20 < s.res.snapTiles + s.tilesIn (r.fld 12 2) (r.fld 14 2)
   else if r.opc = 0x44 ∨ r.opc = 0x45 then !checked || s.f oProfileDeadlines 19 0 = 0
   else [0x43, 0x46, 0x47].contains r.opc)

/-- Address of a layer's entry (R310). -/
def layerAddr (l : Nat) : Nat := 0x2B000000 + 32 * l

/-- STAT_ADDR of a stash command is ignored (R316): its layer has no heads. -/
def State.noHeads (s : State) (r : Run) : Bool :=
  r.fld 8 2 ≤ 255 && (s.lineBad (layerAddr (r.fld 8 2)) 32 || s.num (layerAddr (r.fld 8 2) + 4) 2 = 0)

/-- A body breaks R493: an empty range, or an address off its alignment. A failing body completes REFUSED_LAYOUT. -/
def State.layoutBad (s : State) (r : Run) : Bool :=
  let a := r.fld
  let off := fun lo n m => a lo n % m != 0
  if r.opc = 0x10 then a 14 2 < a 12 2 || off 24 6 256
  else if r.opc = 0x11 then off 24 6 256 || off 40 6 8
  else if r.opc = 0x20 then a 18 2 < a 16 2 || off 24 6 256
  else if r.opc = 0x21 then off 24 6 256 || off 40 6 8
  else if r.opc = 0x30 then a 14 2 < a 12 2 || off 16 6 128
  else if r.opc = 0x31 then off 16 6 128 || off 32 6 8
  else if r.opc = 0x32 then a 16 2 < a 14 2 || off 24 6 128 || off 32 8 256 || off 40 8 64
  else if r.opc = 0x33 then
    a 12 1 / 2 % 2 = 1 && (off 16 8 8 || !(0x26000000 ≤ a 16 8 && a 16 8 + 2 * a 14 2 ≤ 0x2A000000))
  else if r.opc = 0x44 ∨ r.opc = 0x45 then off 24 6 256 || (off 32 6 256 && !s.noHeads r)
  else false

/-- The opcodes whose work passes through fabric lanes: sweeps, and what runs on the service configuration (R138, R144). -/
def needsFabric (opc : Nat) : Bool := [0x10, 0x11, 0x20, 0x21, 0x30, 0x31, 0x40, 0x41, 0x44, 0x45, 0x47].contains opc

/-- A running RESTORE holds back the evaluation of UQ commands, and with SET_STEP that of AQ commands (R380). -/
def State.restoring (s : State) (q : Queue) : Bool :=
  match s.run .sq with
  | some r => r.opc = 0x43 && (q = .uq || (q = .aq && r.fld 20 1 % 2 = 1))
  | none => false

/-- The command is one of a step (R80): an UPDATE, UPDATE_SPARSE, MATRIX, COMMIT or DISCARD that names it. -/
def Run.ofStep (r : Run) (step : Nat) : Bool := 0x30 ≤ r.opc && r.opc ≤ 0x34 && r.fld 8 4 = step

/-- The DISCARDs posted with ABORT_AHEAD (R80): their SEQs and steps. -/
def State.abortAhead (s : State) : List (Nat × Nat) :=
  (List.range (sub32 (s.posted .uq) (s.doneSeq .uq))).filterMap (fun i =>
    let seq := (s.doneSeq .uq + 1 + i) % 2 ^ 32
    let bs := s.record .uq seq
    if leAt bs 0 1 = 0x34 && leAt bs 4 4 = seq && leAt bs 12 1 % 2 = 1 then some (seq, leAt bs 8 4) else none)

/-- The command at the head of a queue taken up by the row of its opcode: evaluated when it has just come to the head,
carried on when it runs already. Nothing happens when the head is another command (assumption log 12). `ev` sees a command that has passed R422 and R493, `go` one that runs. -/
def State.serve (s : State) (q : Queue) (opc : Nat) (ev go : State → Run → State) : State :=
  let s := s.settleHead q
  match s.run q with
  | some r => if r.opc = opc then (go s r).settleHead q else s
  | none =>
    if !s.waiting q then s
    else
      let r := s.newRun q
      if r.opc != opc || s.restoring q then s
      else
        let r := { r with best := s.bestEffort q r }
        if s.layoutBad r then (s.complete q r 0x16 []).settleHead q
        else if needsFabric opc && s.f oFabStat 23 12 = 0 then (s.complete q r 0x2F []).settleHead q
        else (ev (s.setRun q (some r)) r).settleHead q

/-- A command that control data could not be read for ends with FAULT_CHECKWORD (R492). -/
def State.badControl (s : State) (q : Queue) (r : Run) (desc addr n : Nat) : State :=
  s.lineFault (some q) r.seq desc 0 0x24 (s.badAddr addr n)

/-- The open snapshot discarded (R372, R373). -/
def State.dropOpen (s : State) : State :=
  let id := s.f oSnapOpen 63 32
  let hs := s.res.halves.map (fun (h : Option Snap) => match h with
    | some x => if !x.sealed && x.id = id then none else h
    | none => h)
  { s with res := { s.res with halves := hs } }.setF oSnapOpen 63 32 0

/-- A SNAPSHOT has run: a checkpoint is due (R342). -/
def State.snapOver (s : State) : State := { s with tier := { s.tier with ckptDue := max 1 s.tier.ckptDue } }

/-- A SNAPSHOT that gives way to a sweep ends ABORTED once nothing of it is in flight (R373). -/
def State.snapAbort (s : State) (r : Run) : State :=
  s.dropOpen.snapOver.complete .sq r 0x2F [r.t.tiles, r.t.extra, r.t.drops, r.gated]

/-- A sweep that would wait on a SNAPSHOT with YIELD stops it (R373). -/
def State.yieldSnap (s : State) (d bank t : Nat) : State :=
  match s.run .sq with
  | some r =>
    if r.opc = 0x42 && r.fld 20 1 / 4 % 2 = 1 && r.banks.contains (d, bank) && !s.passed .sq r d t && !r.aborting then
      if (s.jobsOf .sq r.seq).isEmpty then s.snapAbort r else s.setRun .sq (some { r with aborting := true })
    else s
  | none => s

/-- A sweep asks to write tile t of a descriptor's bank (R20, R373). -/
def State.bankGo (s : State) (d bank t : Nat) : State × Bool :=
  let s := s.yieldSnap d bank t
  (s, s.bankFree d bank t)

/-- The queue counts as enabled (R426). -/
def State.enabled (s : State) (q : Queue) : Bool := s.b (oQCfg (qIdx q)) 0

/-- Q_STAT's word with BUSY as it stands (R426). -/
def State.qStat (s : State) (q : Queue) : Word := setBit (s.reg (oQStat (qIdx q))) 1 (s.run q).isSome

/-- A doorbell (R425, R443, R462). -/
def State.ring_ (s : State) (q : Queue) (v : Nat) : State :=
  let bad := s.setB (oQStat (qIdx q)) 2 true
  if s.pin.halted || s.pin.phase < 6 || !s.enabled q || !s.b (oQStat (qIdx q)) 0 then bad
  else if sub32 v (s.doneSeq q) ≤ s.entries q && sub32 v (s.posted q) < 2 ^ 31 then
    (s.setF (oQDoneSeq (qIdx q)) 63 32 v).settleHead q
  else bad

/-- A write of Q_CFG (R426, R443): the state and whether the queue goes from disabled to enabled. -/
def State.qCfg (s : State) (q : Queue) (w : Word) : State :=
  let o := oQCfg (qIdx q)
  let err := fun (s : State) => s.setB (oQStat (qIdx q)) 3 true
  let base := fld w 63 32
  let lg := fld w 12 8
  let en := bit w 0
  if s.enabled q then
    let s := if base != s.baseSeq q || lg != s.f o 12 8 then err s else s
    if en then s
    else if s.posted q != s.doneSeq q then err s
    else
      let s := (s.setB o 0 false).setB (oQStat (qIdx q)) 0 false
      s.setQueue q { s.queue q with zeroing := false }
  else
    let s := s.setF o 63 32 base
    let s := if 6 ≤ lg ∧ lg ≤ 16 then s.setF o 12 8 lg else err s
    if !en then s
    else if s.pin.phase < 6 then err s
    else
      let s := s.setB o 0 true
      let s := s.setReg (oQDoneSeq (qIdx q)) (setFld (setFld 0#64 63 32 (sub32 base 1)) 31 0 (sub32 base 1))
      s.setQueue q { run := none, zeroing := true, pass1 := base }

end Sys2Proof.Machine
end

