-- ==== Sys2Proof/Machine/Sweep.lean ====
section
/-! DEFINITION. The update sweep (R168 to R196): UPDATE, UPDATE_SPARSE, and what a tile of theirs does. -/
namespace Sys2Proof.Machine

/-- The extent of a program's buffer that is keyed by a descriptor (R206). -/
def State.extent (s : State) (prog desc : Nat) : Option Extent :=
  s.step.extents.find? (fun e => e.prog = prog && e.desc = desc)

/-- Extents reserved for a producing command (R206), packed from the base upward; none when they do not fit. -/
def State.reserve (s : State) (prog seq : Nat) (byMx : Bool) : List (Nat × Nat) → Option State
  | [] => some s
  | (desc, bytes) :: t =>
    let len := roundUp bytes 256
    let used := (s.step.extents.filter (·.prog == prog)).foldl (fun n e => n + e.len) 0
    if s.f (oMxBufSize prog) 15 0 * 2 ^ 21 < used + len then none
    else
      let e : Extent := ⟨prog, desc, s.f (oMxBufBase prog) 47 8 * 256 + used, len, false, byMx, seq⟩
      State.reserve { s with step := { s.step with extents := s.step.extents ++ [e] } } prog seq byMx t

/-- An extent of a descriptor complete (R207). -/
def State.extentDone (s : State) (prog desc : Nat) : State :=
  let es := s.step.extents.map (fun e => if e.prog = prog && e.desc = desc then { e with complete := true } else e)
  { s with step := { s.step with extents := es } }

/-- Address of the fold record on a descriptor's statistics page (R280). -/
def foldRec (d : Nat) : Nat := 0x400000 + 4096 * d + 3200

/-- A K32A code decoded. -/
def k32a (code : Nat) : KX := (decodeElem .k32a code none).v

/-- The divisor of a descriptor for a step (R270): D_CLOSED when CLOSED_STEP is the step, and 0 otherwise. -/
def State.divisor (s : State) (d step : Nat) : KX :=
  if s.num (foldRec d + 44) 4 = step then k32a (s.num (foldRec d + 48) 4) else kxZero

/-- The divisor of a descriptor cannot be read, where A0 is formed from it (R175, R270, R492). -/
def State.divisorBad (s : State) (host : Bool) (d : Nat) : Bool := !host && s.lineBad (foldRec d + 44) 8

/-- The clip factor of a step, once it has arrived (R19, R275). -/
def State.kappa (s : State) (step : Nat) : Option KX := (s.grad.norm.kappas.find? (·.1 == step)).map (·.2)

/-- A0 of a descriptor (R175): word 0 of the block, or κ / d; +0 for a divisor of 0. The Bool says that it saturated. -/
def State.argA0 (s : State) (host : Bool) (args : List KX) (d step : Nat) : KX × Bool :=
  if host then (nth kxZero args 0, false)
  else
    let dv := s.divisor d step
    if kxIsZero dv then (kxZero, false) else kxDiv ((s.kappa step).getD kxZero) dv

/-- Factors multiplied one after the other, every product rounded; the Bool says that one saturated. -/
def kxProd (x : KX × Bool) (l : List (KX × Bool)) : KX × Bool :=
  l.foldl (fun a y => let (z, o) := kxMul a.1 y.1; (z, a.2 || y.2 || o)) x

/-- A power with an exponent of any size (R185): POWN(β, 65,535) taken q times and POWN(β, r), every product rounded. -/
def kxPowBig (b : KX) (n : Nat) : KX × Bool :=
  kxProd (kxPowNat b (n % 65535)) (List.replicate (n / 65535) (kxPowNat b 65535))

/-- KX_OVF set when a result saturated (R107). -/
def State.kxFlag (s : State) (o : Bool) : State := if o then s.setB oNumStat 4 true else s

/-- An encoding to K32A at the engine's own sites, under the live OVF_FORCE (R106), which NUM_STAT takes part in (R107): the code. -/
def State.encK (s : State) (x : KX) : State × Nat :=
  let e := encodeElem .k32a x none (nanMode (numCfgOf (s.reg oNumCfg)) 0) none
  (s.numStat (encCounts e) false, e.code)

/-- The same, with the code stored at an address. -/
def State.storeK (s : State) (a : Nat) (x : KX) : State := (s.encK x).1.storeNum a 4 (s.encK x).2

/-- The decay of a role of a descriptor, none without a LAZY index (R185 to R187). -/
def State.decayOf (s : State) (d : Desc) (role : Nat) : Option KX :=
  let k := nth 0 d.lazy role
  if k = 0 then none else some ((s.reg (oLazyDecay (k - 1))).setWidth 34)

/-- The stamps of rows lo to lo + n − 1 in a bank (R171). -/
def State.stamps (s : State) (d : Desc) (bank lo n : Nat) : List Nat :=
  unpackWords 2 n (s.bytes (stampAddr d bank + 2 * lo) (2 * n))

/-- Columns of ports turned into one list of ports for each position. -/
def zipCols (n : Nat) (cols : List (List PortIn)) : List (List PortIn) :=
  cols.foldr (fun c acc => List.zipWith (fun x l => x :: l) c acc) (List.replicate n [])

/-- What input port n of a variant reads for a run of positions (R155 to R157, R257). -/
def State.portCol (s : State) (t : Tvd) (v : Variant) (d : Desc) (step n : Nat) (seg : Nat × Nat) : List PortIn :=
  match t.inRole v.num n with
  | none => List.replicate seg.2 none
  | some 3 => (s.readAcc d step seg.1 seg.2).map some
  | some role =>
    if role < 6 then (s.readRole t v d role d.role seg.1 seg.2).map some
    else match (t.inProg v.num n).bind (fun k => s.extent k d.idx), siteFmt (v.site n) with
      | some e, some f => (s.readElems f e.addr 0 0 seg.1 seg.2).map some
      | _, _ => (zeroElems seg.2).map some

/-- The decay of R185 on the moment inputs of a row whose Δ exceeds 65,535; the Bool says that a product saturated. -/
def State.decayPorts (s : State) (t : Tvd) (v : Variant) (d : Desc) (delta : Nat) (ports : List PortIn) : List PortIn × Bool :=
  if delta ≤ 65535 then (ports, false)
  else
    let ps := List.zipWith (fun n (p : PortIn) =>
      match p, (t.inRole v.num n).bind (fun role => if role < 6 then s.decayOf d role else none) with
      | some x, some b => let (y, o) := kxProd (x.v, false) [kxPowBig b (delta - 65535)]; ((some { x with v := y } : PortIn), o)
      | _, _ => (p, false)) (List.range 8) ports
    (ps.map (·.1), ps.any (·.2))

/-- The positions of a run of a descriptor, as the fabric takes them (R110, R172, R183); `at0` numbers the first one within
its tile. -/
def State.segInputs (s : State) (t : Tvd) (v : Variant) (d : Desc) (step at0 : Nat) (seg : Nat × Nat) : List PosIn :=
  let cols := (List.range 8).map (fun n => s.portCol t v d step n seg)
  let lo := d.rowAt seg.1
  let sts := if d.stamped then s.stamps d d.role lo (d.rowAt (seg.1 + seg.2 - 1) + 1 - lo) else []
  List.zipWith (fun i ports =>
    let p := seg.1 + i
    let delta := if d.stamped then d.deltaOf step (nth 0 sts (d.rowAt p - lo)) else 1
    let (ports, o) := s.decayPorts t v d delta ports
    { pos := at0 + i, index := p, void := (d.elemAt p).isNone, ports := ports, ovf := o
      delta := if d.stamped then kxOfNat (min delta 65535) else kxOne })
    (List.range seg.2) (zipCols seg.2 cols)

/-- The positions of all runs of a tile. -/
def State.tileInputs (s : State) (t : Tvd) (v : Variant) (d : Desc) (step : Nat) : Nat → List (Nat × Nat) → List PosIn
  | _, [] => []
  | at0, seg :: rest => s.segInputs t v d step at0 seg ++ s.tileInputs t v d step (at0 + seg.2) rest

/-- The scale that R188 selects for an encode site of a descriptor from its committed amax history. -/
def State.histScale (s : State) (d site : Nat) (w : Word) : Nat :=
  let a := siteRec d site
  let head := s.num (a + 28) 1 % 16
  let hs := (List.range (min 16 (s.num (a + 29) 1))).map (fun i => k32a (s.num (a + 32 + 4 * ((head + 16 - i) % 16)) 4))
  match siteFmt w with
  | some f => scaleFor f (maxMag hs) (fld w 38 36)
  | none => 127

/-- The encode sites of a variant that carry block scales (R151). -/
def Variant.scaledSites (v : Variant) : List Nat :=
  (List.range 24).filter (fun i => 8 ≤ i && (siteFmt (v.site i)).isSome && siteBlk (v.site i) != 0)

/-- Scales chosen for a descriptor when its first tile issues (R188, R189: SCALE, SCALE_STEP). -/
def State.chooseScales (s : State) (v : Variant) (d step : Nat) : State :=
  v.scaledSites.foldl (fun s i =>
    let w := v.site i
    let e := if bit w 39 then fld w 47 40 else s.histScale d i w
    (s.storeNum (siteRec d i + 96) 1 e).storeNum (siteRec d i + 100) 4 step) s

/-- The scale code of each site of a descriptor's sweep. -/
def State.siteScales (s : State) (v : Variant) (d : Nat) : List (Option Nat) :=
  (List.range 24).map (fun i =>
    if v.scaledSites.contains i then some (if bit (v.site i) 39 then fld (v.site i) 47 40 else s.num (siteRec d i + 96) 1)
    else none)

/-- A running maximum combined into the pending entry of its site (R59, R124, R189). -/
def State.pendAmax (s : State) (d site : Nat) (m : KX) : State :=
  let a := siteRec d site
  let old := s.num (a + 30) 1 % 2 = 1
  let m := if old then kxMax (k32a (s.num (a + 24) 4)) m else m
  (s.storeK (a + 24) m).storeNum (a + 30) 1 1

/-- Counts added at a site of a descriptor (R105, R107, R189); nothing for none. -/
def State.addSite (s : State) (d site : Nat) (c : Counts) : State :=
  if c.total = 0 then s else (s.addCountsAt (siteRec d site) c).numStat c false

/-- A descriptor held (R191, R193): for NaN, or for a tile fault. The second part says that it was not held before. -/
def State.holdDesc (s : State) (step d : Nat) (nan : Bool) : State × Bool :=
  let s := s.setF oHeldStat 31 0 step
  let cnt := fun (s : State) => if nan then s.count oHeldStat 47 32 1 else s.count oHeldStat 63 48 1
  match s.step.held.find? (·.desc == d) with
  | some h =>
    if (if nan then h.nan else h.faulted) then (s, false)
    else
      let h' : Held := if nan then { h with nan := true } else { h with faulted := true }
      (cnt { s with step := { s.step with held := s.step.held.map (fun x => if x.desc = d then h' else x) } }, false)
  | none =>
    let n := s.step.held.length
    let s := if n < 4096 then s.putBy .uq d (0x10400000 + 2 * n) (leBytes 2 d) else s
    (cnt { s with step := { s.step with held := s.step.held ++ [⟨d, nan, !nan⟩] } }, true)

/-- Elements of a list cut into pieces of given lengths. -/
def cutBy {α : Type} : List Nat → List α → List (List α)
  | [], _ => []
  | n :: t, l => l.take n :: cutBy t (l.drop n)

/-- The element that an output port's site produced at a position; none at a void position. -/
def siteEnc (site : Nat) (outs : List (Bool × SiteOut)) : Option Enc :=
  (outs.find? (fun o => o.2.site = site)).bind (fun o => if o.1 then none else some o.2.enc)

/-- What a site counts at a position (R105): one conversion in each pass that uses it, none at a void position. -/
def siteCounts (site : Nat) (outs : List (Bool × SiteOut)) : Counts :=
  (outs.filter (fun o => o.2.site = site && !o.1)).foldl (fun c o => addCounts c (encCounts o.2.enc)) zeroCounts

/-- The output of port n written where its stream leads (R94, R95, R156, R206): Umber of a role, or a buffer's extent. The
counts are those of the site. -/
def State.writePort (s : State) (t : Tvd) (v : Variant) (d : Desc) (segs : List (Nat × Nat)) (scs : List (Option Nat))
    (outs : List (List (Bool × SiteOut))) (n : Nat) : State × Counts :=
  let w := v.site (8 + n)
  match siteFmt w, t.outRole v.num n with
  | some f, some role =>
    let es := cutBy (segs.map (·.2)) (outs.map (siteEnc (8 + n)))
    let blk := blkSize (siteBlk w)
    let sc := (nth none scs (8 + n)).getD 127
    (segs.zip es).foldl (fun (s, c) (seg, l) =>
      let sl := List.replicate (if blk = 0 then 0 else cdiv l.length blk) sc
      if role < 6 then
        let (s, c') := s.writeElems f (roleAddr t v d role d.umber) (scaleAddr t v d role d.umber) blk seg.1 l sl
        (s, addCounts c c')
      else match (t.outProg v.num n).bind (fun k => s.extent k d.idx) with
        | some e => let (s, c') := s.writeElems f e.addr 0 0 seg.1 l []; (s, addCounts c c')
        | none => (s, c)) (s, zeroCounts)
  | _, _ => (s, zeroCounts)

/-- The rows of some runs stamped in a bank (R177, R181). -/
def State.stampRows (s : State) (d : Desc) (bank step : Nat) (segs : List (Nat × Nat)) : State :=
  if !d.stamped then s
  else segs.foldl (fun s seg =>
    let (lo, n) := d.rowsOfSeg seg
    s.put (stampAddr d bank + 2 * lo) ((List.replicate n (leBytes 2 step)).flatten)) s

/-- Bytes of a role's elements and scales that a run of positions occupies, as (address, bytes). -/
def roleRanges (t : Tvd) (v : Variant) (d : Desc) (role bank : Nat) (seg : Nat × Nat) : List (Nat × Nat) :=
  match d.roleFmt role with
  | none => []
  | some f =>
    let b := blkSize (t.roleBlk v role)
    let st := seg.1 - f.before seg.1
    (roleAddr t v d role bank + packedBytes f st, packedBytes f (seg.1 + seg.2 - st)) ::
    (if b = 0 then [] else [(scaleAddr t v d role bank + seg.1 / b, cdiv (seg.1 + seg.2) b - seg.1 / b)])

/-- The ranges that input port n of a sweep reads for a run of positions. -/
def State.portReads (s : State) (t : Tvd) (v : Variant) (d : Desc) (step n : Nat) (seg : Nat × Nat) : List (Nat × Nat) :=
  match t.inRole v.num n with
  | none => []
  | some 3 => (0x24800000 + 4 * ((d.accBase + 4 * seg.1) / 32768), 4) ::
      (if s.foldMap (d.accBase + 4 * seg.1) = step then roleRanges t v d 3 0 seg else [])
  | some role =>
    if role < 6 then roleRanges t v d role d.role seg
    else match (t.inProg v.num n).bind (fun k => s.extent k d.idx), siteFmt (v.site n) with
      | some e, some f => [(e.addr + packedBytes f seg.1, packedBytes f seg.2)]
      | _, _ => []

/-- The stamps of the rows that a run of positions meets, in a bank. -/
def stampRange (d : Desc) (bank : Nat) (seg : Nat × Nat) : List (Nat × Nat) :=
  if d.stamped then let (lo, n) := d.rowsOfSeg seg; [(stampAddr d bank + 2 * lo, 2 * n)] else []

/-- The ranges that a tile of a sweep reads: roles, stamps, buffers (R196). -/
def State.sweepReads (s : State) (t : Tvd) (v : Variant) (d : Desc) (step : Nat) (segs : List (Nat × Nat)) :
    List (Nat × Nat) :=
  segs.flatMap (fun seg => (List.range 8).flatMap (fun n => s.portReads t v d step n seg) ++ stampRange d d.role seg)

/-- The ranges that output port n of a sweep writes for a run of positions. -/
def State.portWrites (s : State) (t : Tvd) (v : Variant) (d : Desc) (n : Nat) (seg : Nat × Nat) : List (Nat × Nat) :=
  match t.outRole v.num n with
  | none => []
  | some role =>
    if role < 6 then roleRanges t v d role d.umber seg
    else match (t.outProg v.num n).bind (fun k => s.extent k d.idx), siteFmt (v.site (8 + n)) with
      | some e, some f => [(e.addr + packedBytes f seg.1, packedBytes f seg.2)]
      | _, _ => []

/-- The ranges that a tile of a sweep writes. -/
def State.sweepWrites (s : State) (t : Tvd) (v : Variant) (d : Desc) (segs : List (Nat × Nat)) : List (Nat × Nat) :=
  segs.flatMap (fun seg => (List.range 8).flatMap (fun n => s.portWrites t v d n seg) ++ stampRange d d.umber seg)

/-- The input port whose ring brings the stamps (R232): that of W, else the first in use. -/
def stampPort (t : Tvd) (v : Variant) : Nat :=
  (t.readSite v.num 0).getD (((List.range 8).find? (fun n => (t.inRole v.num n).isSome)).getD 0)

/-- What the producers of a sweep read, and what the consumers of its output rings write (R155, R235). The stamps leave with W. -/
def State.sweepFeed (s : State) (t : Tvd) (v : Variant) (d : Desc) (step tiles : Nat) (segs : Nat → List (Nat × Nat)) : Feed :=
  { tiles := tiles
    reads := fun k tile =>
      match (List.range 8).find? (fun n => t.streams.any (fun e => e.engine = k && e.consumer = 0x20 + 8 * v.num + n)) with
      | some n => (segs tile).flatMap (fun seg =>
          s.portReads t v d step n seg ++ (if n = stampPort t v then stampRange d d.role seg else []))
      | none => []
    outs := fun k tile =>
      match (List.range 8).find? (fun n => t.streams.any (fun e => e.engine = k && e.producer = 0x40 + 8 * v.num + n)) with
      | some n => (segs tile).flatMap (fun seg =>
          s.portWrites t v d n seg ++ (if t.outRole v.num n = some 0 then stampRange d d.umber seg else []))
      | none => [] }

/-- The stream group of a sweep (R232, R245): every ring that serves its variant. -/
def sweepGroup (t : Tvd) (v : Variant) (d : Desc) : List GRing :=
  let site := fun n => ((siteFmt (v.site n)).map (fun f => fmtTileBytes f (blkSize (siteBlk (v.site n))))).getD 0
  t.streams.filterMap (fun e =>
    if 0x20 + 8 * v.num ≤ e.consumer ∧ e.consumer < 0x28 + 8 * v.num then
      some ⟨e.engine, slotTiles e.slotLog2 (if e.producer < 0x10 then tileBytes t v d e.producer else site (e.consumer % 8)), false⟩
    else if 0x40 + 8 * v.num ≤ e.producer ∧ e.producer < 0x48 + 8 * v.num then
      some ⟨e.engine, slotTiles e.slotLog2 (if 0x10 ≤ e.consumer ∧ e.consumer < 0x20 then tileBytes t v d (e.consumer - 0x10)
        else site (8 + e.producer % 8)), true⟩
    else none)

/-- A line that a tile of a descriptor writes in Umber is being written again (R81, R402): its write is not complete. -/
def State.umberOut (s : State) (d t : Nat) : Bool :=
  let x := s.desc d
  let ls := (s.io.tries.filter (·.write)).filterMap (fun y => s.psLine y.line)
  !ls.isEmpty && (s.sweepWrites s.fab.resident (s.variantOf x) x (denseSegs x t)).any (fun (a, n) =>
    n != 0 && ls.any (fun l => a / 256 ≤ l && l ≤ (a + n - 1) / 256))

/-- The sweep of the uncommitted step has read tile t of descriptor d's accumulator, and written the tile (R18, R81). -/
def State.sweptTile (s : State) (d t : Nat) : Bool :=
  s.step.swept.any (fun w => w.desc = d && (t < w.upTo || w.rows.contains t)) && !s.umberOut d t

/-- A fold into the open step may touch tile t of descriptor d (R18, R81, R268): the tile is not held for the step before.
With REPLAY_GUARD it is held until the flip, or until a DISCARD and a completed replay sweep. -/
def State.foldFree (s : State) (d t : Nat) : Bool :=
  if s.stepNow + 1 < s.grad.openStep && s.grad.closed.contains d then
    if s.b oCommitGroup 1 then s.step.replayed && s.step.swept.any (fun w => w.desc = d && w.all) else s.sweptTile d t
  else true

/-- A tap result combined into those of the descriptor so far (R190); the Bool says that the sum saturated. -/
def addTap (ts : List (Nat × KX)) (i op : Nat) (x : KX) : List (Nat × KX) × Bool :=
  match ts.find? (·.1 == i) with
  | some (_, y) => let (z, o) := tapJoin op y x; (ts.map (fun e => if e.1 = i then (i, z) else e), o)
  | none => (ts ++ [(i, x)], false)

/-- The tap results of a tile combined into those of the descriptor so far. -/
def addTaps (ts : List (Nat × KX)) (taps : List (Nat × Nat × Enc)) : List (Nat × KX) × Bool :=
  taps.foldl (fun a x => let (ts, o) := addTap a.1 x.1 x.2.1 (k32a x.2.2.code); (ts, a.2 || o)) (ts, false)

/-- The tap records of a descriptor written by a command of UQ (R190). The Bool says that one lies in a line that cannot be read, which is
reported (R359). -/
def State.writeTaps (s : State) (d step : Nat) (ts : List (Nat × KX)) : State × Bool :=
  ts.foldl (fun (s, bad) (i, x) =>
    let a := 0x400000 + 4096 * d + 3072 + 16 * i
    let (s, c) := s.encK x
    (s.putBy .uq d a (leBytes 4 c ++ leBytes 4 step), bad || s.mergeBad a 8)) (s, false)

/-- What a tile's work found: a NaN counted at a site, data that failed its check word, a statistics page that did
(R492: the addition is not made, nothing is held). -/
structure Found where
  nan   : Bool
  check : Bool
  stat  : Bool
  deriving DecidableEq, Repr

/-- The tile's counts, maxima, taps and NaN report, which appear when it completes (R105, R124, R126, R189, R192). -/
def State.reportTile (s : State) (j : Job) (d : Desc) (ps : List PosIn) (res : TileRes) : State × Bool :=
  let live := ps.filter (fun p => !p.void)
  let ins := (List.range 8).map (fun n => live.foldl (fun c p =>
    match nth none p.ports n with | some x => addCounts c (decCounts x) | none => c) zeroCounts)
  let s := (ins.zip (List.range 8)).foldl (fun s (c, n) => s.addSite d.idx n c) s
  let cvts := (List.range 8).map (fun n => res.outs.foldl (fun c outs => addCounts c (siteCounts (16 + n) outs)) zeroCounts)
  let s := (cvts.zip (List.range 8)).foldl (fun s (c, n) => s.addSite d.idx (16 + n) c) s
  let s := res.amax.foldl (fun s (site, m) => s.pendAmax d.idx site m) s
  let tapc := res.taps.foldl (fun c x => addCounts c (encCounts x.2.2)) zeroCounts
  let s := s.numStat tapc res.ovf
  let s := match res.nan with
    | some e => s.captureNan ⟨j.q, e.cell, e.op, e.site, d.idx, j.laneOf e.pos, j.seq, j.tile, e.a, e.b, e.c⟩
    | none => s
  (s, (ins ++ cvts).any (fun c => c.nan != 0))

/-- The first statistics record of the variant's sites in an uncorrectable line (R492). -/
def State.statBad (s : State) (v : Variant) (d : Nat) : Option Nat :=
  ((List.range 24).find? (fun i => fld (v.site i) 63 60 != 0xF && s.lineBad (siteRec d i) 128)).map (siteRec d)

/-- The first record in an uncorrectable line whose amax history chooses a scale (R188, R492). -/
def State.histBad (s : State) (v : Variant) (d : Nat) : Option Nat :=
  (v.scaledSites.find? (fun i => !bit (v.site i) 39 && s.lineBad (siteRec d i) 128)).map (siteRec d)

/-- One tile of a sweep: read, computed, written to Umber (R181, R188, R191). -/
def State.sweepTile (s : State) (r : Run) (j : Job) (d : Desc) (segs : List (Nat × Nat)) :
    State × Found × List (Nat × Nat × Enc) :=
  let t := s.fab.resident
  let v := s.variantOf d
  let rd := s.sweepReads t v d r.step segs
  let wr := s.sweepWrites t v d segs
  match rd.find? (fun (a, n) => s.lineBad a n), wr.find? (fun (a, n) => s.mergeBad a n) with
  | some (a, n), _ => (s.lineFault (some j.q) j.seq d.idx j.tile 0x24 (s.badAddr a n), ⟨false, true, false⟩, [])
  | none, some (a, n) => (s.lineFault (some j.q) j.seq d.idx j.tile 0x24 (s.badAddr a n), ⟨false, true, false⟩, [])
  | none, none =>
    let ps := s.tileInputs t v d r.step 0 segs
    let scs := s.siteScales v d.idx
    let (a0, o) := s.argA0 (r.fld 24 1 % 2 = 1) r.args d.idx r.step
    let cfg : TileCfg :=
      { v := v, args := a0 :: r.args.drop 1, num := numCfgOf (s.reg oNumCfg)
        genSeed := s.fab.genSeed, keySeed := s.reg oKeySeed, step := r.step, tensor := d.idx, scales := scs
        draw := s.freeCtr }
    let res := runTile cfg ps
    let s := (s.drawn (2 * 8192)).kxFlag o
    let (s, outNan) := (List.range 8).foldl (fun (s, bad) n =>
      let (s, c) := s.writePort t v d segs scs res.outs n
      (s.addSite d.idx (8 + n) c, bad || c.nan != 0)) (s, false)
    let s := s.stampRows d d.umber r.step segs
    let (s, inNan) := s.reportTile j d ps res
    match s.statBad v d.idx with
    | some a => (s.lineFault (some j.q) j.seq d.idx j.tile 0x24 a, ⟨outNan || inNan, false, true⟩, res.taps)
    | none => (s, ⟨outNan || inNan, false, false⟩, res.taps)

/-- The outcome of a tile that its command cannot do (R178, R245, R246, R333), in the tally. -/
def Tally.absent (t : Tally) (fault : Nat) : Tally :=
  if fault = 0x21 then { t with poison := true } else if fault = 0x23 then { t with timeout := true } else { t with check := true }

/-- The result of R178 from a tally; drops count for the sparse command. -/
def Tally.result (t : Tally) : Nat :=
  if t.poison then 0x21 else if t.timeout then 0x23 else if t.check then 0x24 else if t.nan then 0x20
  else if t.drops != 0 then 0x01 else if t.recovered then 0x03 else 0x00

/-- Saturation at 16 bits. -/
def sat16 (n : Nat) : Nat := min n 65535

/-- The completion of an UPDATE or UPDATE_SPARSE (R174, R178). Control data that could not be read counts in its place of R178's order; any
other code that ended the issue of tiles is the result. -/
def State.sweepEnd (s : State) (r : Run) : State :=
  let own := nth 0 r.info 0
  let code := if r.aborting then 0x2F else if own = 0x24 then { r.t with check := true }.result else if own = 0 then r.t.result else own
  if r.opc = 0x30 then s.complete .uq r code [r.t.tiles, r.t.replayed, r.t.held, r.t.descs]
  else s.complete .uq r code [runRows r.rows, r.t.extra, r.t.extra2, sat16 r.t.drops * 65536 + sat16 r.t.replayed]

/-- The command stops issuing: it ends with a code of its own once its tiles in flight are done. -/
def Run.endWith (r : Run) (code : Nat) : Run := { r with issued := true, info := [code] }

/-- A descriptor enters the commit set of the step (R58, R177, R208). -/
def State.joinSet (s : State) (d : Nat) (counts : Bool) : State :=
  { s with step := { s.step with
      written := if counts && !s.step.written.contains d then s.step.written ++ [d] else s.step.written
      set := if s.step.set.contains d then s.step.set else s.step.set ++ [d] } }

/-- A scan is due for a stamped descriptor at a step (R186). -/
def Desc.scanDue (d : Desc) (step : Nat) : Bool := d.stamped && (49152 : Int) ≤ (step : Int) - d.scanStep

/-- A sweep has written a descriptor (R58, R177): it is in the commit set; a dense UPDATE and a due scan are noted (R182, R186). -/
def State.joinSweep (s : State) (r : Run) (d : Desc) : State :=
  let s := s.joinSet d.idx true
  let add := fun (l : List Nat) (b : Bool) => if b && !l.contains d.idx then l ++ [d.idx] else l
  { s with step := { s.step with dense := add s.step.dense (r.opc = 0x30), scanned := add s.step.scanned (d.scanDue r.step) } }

/-- Rows touched or caught up recorded for the forward list (R182). -/
def State.markRows (s : State) (d : Nat) (rs : List (Nat × Nat)) : State :=
  let old := ((s.step.touched.find? (·.desc == d)).map (·.runs)).getD []
  { s with step := { s.step with touched := s.step.touched.filter (·.desc != d) ++ [⟨d, unionRuns old rs⟩] } }

/-- The rows that a sparse sweep of a step catches up (R186), as runs. -/
def State.scanRows (s : State) (d : Desc) (step : Nat) (touched : List (Nat × Nat)) : List (Nat × Nat) :=
  if !d.scanDue step then []
  else
    let sts := s.stamps d d.role 0 d.rows
    runsOf ((List.zip (List.range d.rows) sts).filterMap (fun (i, st) =>
      if !inRuns touched i && 16384 ≤ d.deltaOf step st then some i else none))

/-- The rows that a sparse sweep copies forward (R182), as runs: those of the forward list, or all, that it neither touches nor catches
up. -/
def State.forwardRows (s : State) (d : Desc) (touched caught : List (Nat × Nat)) : List (Nat × Nat) :=
  let l := ((s.fwd.find? (·.desc == d.idx)).map (·.runs)).getD []
  minusRuns (minusRuns (if d.fwdAll then (if d.rows = 0 then [] else [(0, d.rows - 1)]) else l) touched) caught

/-- The bytes of a row in an AUX0 that a program's layout gives (R209): the row of the projector, or of the statistic of its row block. -/
def auxRow (m : MxProg) (d : Desc) (row : Nat) : Nat × Nat :=
  if m.kind = 2 then (row * fld m.p0 47 32 * 2, fld m.p0 47 32 * 2)
  else
    let bs := 2 ^ fld m.p0 59 56
    let w := min bs (d.rows - row / bs * bs)
    (row / bs * (bs * bs * 4) + row % bs * w * 4, w * 4)

/-- The ranges of a run of positions that a copy moves, in a bank (R182): every banked role present with its scales, and the stamps; an AUX0
in a program's layout goes with the first positions of each row. -/
def copyRanges (t : Tvd) (v : Variant) (d : Desc) (bank : Nat) (seg : Nat × Nat) : List (Nat × Nat) :=
  (bankedRoles.filter d.has).flatMap (fun role =>
    match (if role = 4 then auxProgram t v d else none) with
    | some m => if seg.1 % d.pitch = 0 then let (o, n) := auxRow m d (seg.1 / d.pitch); [(roleAddr t v d 4 bank + o, n)] else []
    | none => if d.fmtIdx role = 8 then [(roleAddr t v d role bank + seg.1, seg.2)] else roleRanges t v d role bank seg) ++
  stampRange d bank seg

/-- A role's part of a run of positions copied from Ivory to Umber (R182). -/
def State.copyRole (s : State) (t : Tvd) (v : Variant) (d : Desc) (role : Nat) (seg : Nat × Nat) : State :=
  match (if role = 4 then auxProgram t v d else none) with
  | some m =>
    if seg.1 % d.pitch != 0 then s
    else
      let (o, n) := auxRow m d (seg.1 / d.pitch)
      s.put (roleAddr t v d 4 d.umber + o) (s.bytes (roleAddr t v d 4 d.role + o) n)
  | none => s.copyRun t v d role d.role d.umber seg.1 seg.2

/-- A run of positions copied from Ivory to Umber with the stamps of its rows (R182). -/
def State.copySeg (s : State) (t : Tvd) (v : Variant) (d : Desc) (seg : Nat × Nat) : State :=
  let s := (bankedRoles.filter d.has).foldl (fun s role => s.copyRole t v d role seg) s
  (stampRange d d.role seg).foldl (fun s (a, n) =>
    s.put (stampAddr d d.umber + (a - stampAddr d d.role)) (s.bytes a n)) s

/-- Random consumers before the cell that stores to an output port, in its pass (R129); the pass. -/
def storeConsumer (v : Variant) (n : Nat) : Nat × Nat :=
  let isC := fun (c : CellW) => c.op = 0x3C || (opIsSite c.op && bit (v.site (cellSite c)) 53)
  let pos := fun (cs : List CellW) => (List.range cs.length).find? (fun i =>
    match cs[i]? with | some c => opIsStore c.op && c.site = n | none => false)
  match pos v.cells1 with
  | some i => (((v.cells1.take i).filter isC).length, 1)
  | none => match pos v.cells2 with
    | some i => (((v.cells2.take i).filter isC).length, 2)
    | none => (0, 1)

/-- A NaN that a catch-up encodes: the position, the value, the cell and its operation (R186, R192). -/
structure CatchNan where
  site : Nat
  cell : Nat
  op   : Nat
  pos  : Nat
  x    : KX
  deriving DecidableEq, Repr

/-- The cell that stores to an output port (R126), numbered from 40 in pass 2, with its operation. -/
def storeCell (v : Variant) (n : Nat) : Nat × Nat :=
  let find := fun (cs : List CellW) => (List.range cs.length).find? (fun i =>
    match cs[i]? with | some c => opIsStore c.op && c.site = n | none => false)
  let op := fun (cs : List CellW) i => ((cs[i]?).map (·.op)).getD 0
  match find v.cells1, find v.cells2 with
  | some i, _ => (i, op v.cells1 i)
  | none, some i => (40 + i, op v.cells2 i)
  | none, none => (0xFF, 0)

/-- Moments of a run of positions of one row encoded anew through the variant's output site of their role (R186), with the first NaN that it
encodes. The counts of a site whose record cannot be read are reported and not made (R492). -/
def State.catchRole (s : State) (t : Tvd) (v : Variant) (d : Desc) (step role delta : Nat) (b : KX) (seg : Nat × Nat) :
    State × Option CatchNan :=
  match t.writeSite v.num role with
  | none => (s.copyRole t v d role seg, none)
  | some site =>
    let w := v.site site
    match siteFmt w with
    | none => (s, none)
    | some f =>
      let blk := blkSize (siteBlk w)
      let sc := nth none (s.siteScales v d.idx) site
      let num := numCfgOf (s.reg oNumCfg)
      let (k, pass) := storeConsumer v (site - 8)
      let pw := kxPowBig b delta
      let xs := s.readRole t v d role d.role seg.1 seg.2
      let ys := xs.map (fun (x : Dec) => kxProd (x.v, false) [pw])
      let es := List.zipWith (fun i (y : KX × Bool) =>
        if (d.elemAt (seg.1 + i)).isNone then none
        else
          let word := if bit w 52 || num.keyed then keyedWord (s.reg oKeySeed) step d.idx (seg.1 + i) pass
            else freeWord s.fab.genSeed (s.freeCtr + i)
          let dth := if bit w 53 && !num.noDither then some (ditherOf (fld word (16 * k + 15) (16 * k))) else none
          some (encodeElem f y.1 sc (nanMode num (fld w 55 54)) dth)) (List.range seg.2) ys
      let o := (List.zip es ys).any (fun x => x.1.isSome && x.2.2)
      let (s, c) := (s.drawn seg.2).writeElems f (roleAddr t v d role d.umber) (scaleAddr t v d role d.umber) blk
        seg.1 es (List.replicate (if blk = 0 then 0 else cdiv seg.2 blk) (sc.getD 127))
      let (cell, op) := storeCell v (site - 8)
      let hit := (List.zip (List.range seg.2) (List.zip es ys)).find? (fun x => (x.2.1.map (·.nan)).getD false)
      let s := (s.addSite d.idx site c).recordFault .uq (((s.run .uq).map (·.seq)).getD 0) d.idx 0 (siteRec d.idx site) 128
      (s.kxFlag o, hit.map (fun x => ⟨site, cell, op, seg.1 + x.1, x.2.2.1⟩))

/-- A run of positions of a row caught up (R186): moments decayed, other roles copied, stamped with the step; with the first NaN that it
encodes. -/
def State.catchSeg (s : State) (t : Tvd) (v : Variant) (d : Desc) (step : Nat) (seg : Nat × Nat) : State × Option CatchNan :=
  let stamp := nth 0 (s.stamps d d.role (seg.1 / d.pitch) 1) 0
  let delta := d.deltaOf step stamp
  let (s, nan) := (bankedRoles.filter d.has).foldl (fun (s, nan) role =>
    match s.decayOf d role with
    | some b => let (s, x) := s.catchRole t v d step role delta b seg; (s, (nan <|> x))
    | none => (s.copyRole t v d role seg, nan)) (s, none)
  (s.stampRows d d.umber step [seg], nan)

/-- The variant's programs and extents that a sweep's descriptors need are there (R206 to R208): the state with the
extents it will write reserved, none when something is missing. -/
def State.sweepBuffers (s : State) (r : Run) (ds : List Nat) : Option State :=
  let t := s.fab.resident
  let inOk := ds.all (fun d =>
    let v := (s.desc d).variant
    (List.range 8).all (fun n => match t.inProg v n with | some k => (s.extent k d).isSome | none => true) &&
    !((List.range 8).any (fun n => t.outRole v n == some 4) &&
      s.step.mxRuns.any (fun (k, h) => h = d && ((t.prog? k).map (fun m => m.kind = 2 || m.kind = 4)).getD false)))
  if !inOk then none
  else
    (List.range 8).foldl (fun (o : Option State) k => o.bind (fun s =>
      let need := ds.filterMap (fun d =>
        let x := s.desc d
        match (List.range 8).find? (fun n => t.outProg x.variant n == some k) with
        | some n => (siteFmt ((s.variantOf x).site (8 + n))).map (fun f => (d, packedBytes f x.positions))
        | none => none)
      s.reserve k r.seq false need)) (some s)

/-- The first descriptor of a list that R165, R173 or R492 refuses, with its code. -/
def State.firstBad (s : State) (ds : List Nat) : Option (Nat × Nat) :=
  (ds.find? (fun d => s.descCheck d != 0)).map (fun d => (d, s.descCheck d))

/-- The argument block read when a command starts (R175, R492): `k` runs with it. -/
def State.withArgs (s : State) (q : Queue) (r : Run) (a : Nat) (k : State → List KX → State) : State :=
  match s.pageGo (qIdx q) [(a, 128)] [] with
  | (s, .wait, _) => s.setRun q none
  | (s, .absent f, _) => s.complete q r f []
  | (s, .go, _) =>
    if s.lineBad a 128 then (s.badControl q r 0xFFFF a 128).complete q r 0x24 []
    else k s (s.argBlock a)

/-- CLOSE_STEP of a step has begun and not ended. -/
def State.closing (s : State) (step : Nat) : Bool :=
  match s.run .aq with | some r => r.opc = 0x22 && r.step = step | none => false

/-- CLOSE_STEP of the step has completed and its clip factor has come, or the reduction has timed out (R19, R276). -/
def State.stepClosed (s : State) (step : Nat) : Bool :=
  step < s.grad.openStep && !s.closing step && ((s.kappa step).isSome || s.grad.norm.timedOut.contains step)

/-- UPDATE at evaluation (R177). -/
def State.updateEval (s : State) (r : Run) : State :=
  let step := r.fld 8 4
  let first := r.fld 12 2
  let ds := (List.range (r.fld 14 2 + 1 - first)).map (first + ·)
  if step != (s.stepNow + 1) % 2 ^ 32 then s.complete .uq r 0x2F []
  else if ds.any s.step.written.contains then s.complete .uq r 0x16 []
  else match s.firstBad ds with
    | some (d, 0x24) => (s.badControl .uq r d (64 * d) 64).complete .uq r 0x24 []
    | some (_, code) => s.complete .uq r code []
    | none =>
      if (s.sweepBuffers r ds).isNone then s.complete .uq r 0x16 []
      else s.withArgs .uq r (r.fld 16 6) (fun s args => match s.sweepBuffers r ds with
        | some s => s.setRun .uq (some { r with args := args, step := step, desc := first })
        | none => s.complete .uq r 0x16 [])

/-- UPDATE_SPARSE at evaluation (R177, R179, R180, R244). -/
def State.sparseEval (s : State) (r : Run) : State :=
  let step := r.fld 8 4
  let d := r.fld 12 2
  let n := r.fld 28 4
  let a := r.fld 32 6
  if step != (s.stepNow + 1) % 2 ^ 32 then s.complete .uq r 0x2F []
  else if s.step.written.contains d then s.complete .uq r 0x16 []
  else
    let x := s.desc d
    let code := s.descCheck d
    if code = 0x24 then (s.badControl .uq r d (64 * d) 64).complete .uq r 0x24 []
    else if code != 0 then s.complete .uq r code []
    else if x.order || !x.stamped || !pitchOk x.pitch || 16777216 < n then s.complete .uq r 0x16 []
    else if (s.sweepBuffers r [d]).isNone then s.complete .uq r 0x16 []
    else s.withArgs .uq r (r.fld 16 6) (fun s args =>
      match s.pageGo 2 [(a, 8 * n)] [] with
      | (s, .wait, _) => s.setRun .uq none
      | (s, .absent f, _) => s.complete .uq r f []
      | (s, .go, _) =>
        if s.lineBad a (8 * n) then (s.badControl .uq r d a (8 * n)).complete .uq r 0x24 []
        else
          let es := s.idxEntries a n x.rows
          match (s.passRing (svc 104) (cdiv n 262144)).sweepBuffers r [d] with
          | some s => s.setRun .uq (some { r with args := args, step := step, desc := d, rows := touchedRuns (es.filterMap id)
                                                  t := { r.t with drops := (es.filter Option.isNone).length } })
          | none => s.complete .uq r 0x16 [])

/-- A unit that a command works on holds it up (R138, R363): a spare lane is being loaded, or a bank is being copied. -/
def State.unitWait (s : State) (r : Run) : Bool := (s.fab.laneLoad && needsFabric r.opc) || s.res.sramCopy.any (s.usesBank r)

/-- The rings of a variant lie in SRAM that is out of use (R363). -/
def State.variantDown (s : State) (v : Nat) : Bool :=
  let n := ((s.res.sram.take 48).filter Option.isSome).length
  n < 48 && (bankVariants s.fab.resident (n * 2 ^ 20) (48 * 2 ^ 20)).contains v

/-- Two places in a command, descriptor and tile, in its order. -/
def before (d t e u : Nat) : Bool := d < e || (d = e && t < u)

/-- A command of the queue can issue now: issue is not stopped, it is not being ended, and its tile lies before every stop of its streams
(R245). -/
def State.mayIssue (s : State) (q : Queue) (r : Run) : Bool :=
  !s.issueStopped && !s.unitWait r && !r.issued && !r.aborting && !s.stops.any (fun x => x.q = q && x.seq = r.seq && !before r.desc r.tile x.desc x.tile)

/-- A descriptor about to be latched (R173, R174, R188, R492): its copy validated again, its divisor and the records that choose its scales read. The code
is 0, or what ends the command there. -/
def State.latch (s : State) (r : Run) (desc : Nat) : State × Run × Nat :=
  let code := s.descCheck desc
  let code := if code = 0 && s.variantDown (s.desc desc).variant then 0x2F else code
  if code != 0 then
    let s := if code = 0x24 then s.badControl .uq r desc (64 * desc) 64 else s
    let s := if code = 0x24 && s.step.set.contains desc then (s.holdDesc r.step desc false).1 else s
    (s, r.endWith code, code)
  else if s.divisorBad (r.fld 24 1 % 2 = 1) desc then (s.badControl .uq r desc (foldRec desc + 44) 8, r.endWith 0x24, 0x24)
  else
    match s.histBad (s.variantOf (s.desc desc)) desc with
    | some a =>
      let (s, new) := ((s.badControl .uq r desc a 128).joinSet desc true).holdDesc r.step desc false
      let r := { r with t := { r.t with held := r.t.held + new.toNat } }
      (s, r.endWith 0x24, 0x24)
    | none => (s, r, 0)

/-- A descriptor's first tile has issued: its copy is latched, its scales are chosen, and the step notes what sweeps it (R74, R174, R188). -/
def State.latched (s : State) (r : Run) : State × Run :=
  if r.latched.isSome then (s, r)
  else
    let ws := s.descWords r.desc
    let s := s.chooseScales (s.variantOf (s.desc r.desc)) r.desc r.step
    let s := { s with step := { s.step with sweeps := s.step.sweeps ++ [⟨r.desc, ws, { r with unread := [] }⟩] } }
    (s, { r with latched := some ws, unread := [] })

/-- Where a run stands after a tile: the next tile, or the next descriptor to latch. -/
def Run.advance (r : Run) (n last : Nat) : Run :=
  if r.tile + 1 < n then { r with tile := r.tile + 1 }
  else if r.desc < last then { r with desc := r.desc + 1, tile := 0, latched := none }
  else { r with desc := r.desc + 1, tile := 0, latched := none, issued := true }

/-- A descriptor whose tiles are to issue: its latched copy, or the table's as it stands before its first tile (R134, R165, R174). The Bool says
that a tile may issue; a variant that an APPLY has taken away ends the command REFUSED_FABRIC. -/
def State.sweepLatch (s : State) (r : Run) : State × Run × Bool :=
  match r.latched with
  | some ws =>
    let n := (descOf r.desc ws).variant
    if s.fab.loading.contains n then (s, r, false)
    else if (s.fab.resident.variant? n).isNone then (s, r.endWith 0x15, false)
    else (s, r, true)
  | none =>
    if s.fab.loading.contains (s.desc r.desc).variant then (s, r, false)
    else let (s, r, code) := s.latch r r.desc; (s, r, code = 0)

/-- Every extent that feeds a descriptor is complete (R207). -/
def State.fed (s : State) (v d : Nat) : Bool :=
  (List.range 8).all (fun n => match s.fab.resident.inProg v n with
    | some k => ((s.extent k d).map (·.complete)).getD false
    | none => true)

/-- The words of a descriptor that a run works on: the latched copy, or the table's before the first tile issues (R174). -/
def State.runWords (s : State) (r : Run) : DescWords := r.latched.getD (s.descWords r.desc)

/-- Tiles of an UPDATE issued, up to n of them, until something makes the next one wait (R19, R20, R134, R174, R235). -/
def State.updateIssue : Nat → State → Run → State × Run
  | 0, s, r => (s, r)
  | n + 1, s, r =>
    if !s.mayIssue .uq r then (s, r)
    else
      let (s, r, ok) := s.sweepLatch r
      if !ok then (s, r)
      else
        let ws := s.runWords r
        let d := s.latchedDesc r.desc ws
        let t := s.fab.resident
        let v := s.variantOf d
        let segs := denseSegs d r.tile
        let g := sweepGroup t v d
        let (s, free) := (s.startRings .uq r.seq g).bankGo r.desc d.umber r.tile
        if !free || !s.fed v.num r.desc then (s, r)
        else
          match s.issue .uq r 0 r.desc r.tile (segs.foldl (fun n g => n + g.2) 0) ws (s.sweepFeed t v d r.step d.tiles (denseSegs d))
              (s.sweepWrites t v d segs) g with
          | (s, .sent) =>
            let (s, r) := s.latched r
            State.updateIssue n s (r.advance d.tiles (r.fld 14 2))
          | (s, _) => (s, r)

/-- The highest dense tile that some runs of positions meet. -/
def lastTile (segs : List (Nat × Nat)) : Nat := (segs.map (fun g => g.1 / 8192)).foldl max 0

/-- The ring of the copy-forward and the stamp scan (R230), with the tiles that a slot of it holds. -/
def copyGroup (t : Tvd) (v : Variant) (d : Desc) : List GRing :=
  [⟨svc 105, slotTiles 0 (((bankedRoles.filter d.has).map (tileBytes t v d)).foldl (· + ·) 0), false⟩]

/-- The stamp scan of a sparse sweep, through its ring once (R186, R230, R244): the rows to catch up. None while a page of the stamps is missing.
Stamps that cannot be read, or whose page is lost, hold the descriptor as for a tile fault and end the command (R191, R492). -/
def State.scan (s : State) (r : Run) (d : Desc) : State × Run × Option (List (Nat × Nat)) :=
  let rg := (stampAddr d d.role, 2 * d.rows)
  let fail := fun (s : State) (f : Nat) =>
    let (s, new) := (s.joinSet d.idx true).holdDesc r.step d.idx false
    (s, { r with t := { r.t with held := r.t.held + new.toNat } }.endWith f, none)
  if !d.scanDue r.step then (s, r, some [])
  else match s.pageGo 2 [rg] [] with
    | (s, .wait, _) => (s, r, none)
    | (s, .absent f, _) => fail s f
    | (s, .go, _) =>
      if s.lineBad rg.1 rg.2 then fail (s.badControl .uq r d.idx rg.1 rg.2) 0x24
      else (if r.bound then s else s.passRing (svc 105) (cdiv rg.2 65536), { r with bound := true }, some (s.scanRows d r.step r.rows))

/-- Tiles of an UPDATE_SPARSE issued, by kind: 1 those of the copy-forward, 2 those of the catch-up, 0 the touched ones (R180 to R186). The
touched ones wait until the others are done. -/
def State.sparseIssue : Nat → State → Run → State × Run
  | 0, s, r => (s, r)
  | n + 1, s, r =>
    if !s.mayIssue .uq r then (s, r)
    else
      let (s, r, ok) := s.sweepLatch r
      if !ok then (s, r)
      else
        let ws := s.runWords r
        let d := s.latchedDesc r.desc ws
        let t := s.fab.resident
        let v := s.variantOf d
        if r.phase = 0 then
          match (s.startRings .uq r.seq (copyGroup t v d)).scan r d with
          | (s, r, none) => (s, r)
          | (s, r, some caught) =>
            State.sparseIssue n s { r with phase := 1, tile := 0, behind := caught, copy := s.forwardRows d r.rows caught }
        else if r.phase < 3 then
          let rows := if r.phase = 1 then r.copy else r.behind
          let tiles := sparseTiles d.pitch (runRows rows)
          if tiles ≤ r.tile then State.sparseIssue n s { r with phase := r.phase + 1, tile := 0 }
          else
            let segs := sparseSegs d rows r.tile
            let g := copyGroup t v d
            let (s, free) := (s.startRings .uq r.seq g).bankGo r.desc d.umber (lastTile segs)
            let fd : Feed := { tiles := tiles, reads := fun _ k => (sparseSegs d rows k).flatMap (copyRanges t v d d.role) }
            if !free then (s, r)
            else match s.issue .uq r r.phase r.desc r.tile 0 ws fd (segs.flatMap (copyRanges t v d d.umber)) g with
              | (s, .sent) =>
                let (s, r) := s.latched r
                State.sparseIssue n s { r with tile := r.tile + 1 }
              | (s, _) => (s, r)
        else if !((s.jobsOf .uq r.seq).all (·.kind == 0)) then (s, r)
        else
          let tiles := sparseTiles d.pitch (runRows r.rows)
          if tiles ≤ r.tile then
            let (s, r) := s.latched r
            ((s.joinSweep r d).sweptAll d.idx, { r with issued := true })
          else
            let segs := sparseSegs d r.rows r.tile
            let g := sweepGroup t v d
            let (s, free) := (s.startRings .uq r.seq g).bankGo r.desc d.umber (lastTile segs)
            if !free || !s.fed v.num r.desc then (s, r)
            else match s.issue .uq r 0 r.desc r.tile (segs.foldl (fun n g => n + g.2) 0) ws
                (s.sweepFeed t v d r.step tiles (sparseSegs d r.rows)) (s.sweepWrites t v d segs) g with
              | (s, .sent) =>
                let (s, r) := s.latched r
                State.sparseIssue n s { r with tile := r.tile + 1, issued := tiles ≤ r.tile + 1 }
              | (s, _) => (s, r)

/-- A sparse sweep whose descriptor is not latched yet starts from the table as it stands (R174). -/
def Run.restart (r : Run) : Run :=
  if r.opc = 0x31 && r.latched.isNone then { r with phase := 0, tile := 0, behind := [], copy := [] } else r

/-- How many tiles one firing of a row issues at most. -/
def issueMax : Nat := 4096

/-- The command put back, or completed when it has nothing in flight and nothing to issue. While an Amber episode lasts it does not
complete: its writes may have to be replayed (R368, R369). -/
def State.keepOrEnd (s : State) (q : Queue) (r : Run) (fin : State → Run → State) : State :=
  let s := s.setRun q (some r)
  if (r.issued || r.aborting) && (s.jobsOf q r.seq).isEmpty && !s.b oAmberStat 1 then fin s r else s

/-- A sweep carried on (R19, R276): it waits for its step to close, then issues. -/
def State.sweepGo (s : State) (r : Run) : State :=
  if !s.stepClosed r.step then s
  else if (s.kappa r.step).isNone && r.fld 24 1 % 2 = 0 then s.complete .uq r 0x22 []
  else
    let (s, r) := if r.opc = 0x30 then s.updateIssue issueMax r else s.sparseIssue issueMax r.restart
    s.keepOrEnd .uq r State.sweepEnd

/-- The runs of positions of a tile of a sweep, by its kind. -/
def Run.sweepSegs (r : Run) (d : Desc) (kind tile : Nat) : List (Nat × Nat) :=
  if r.opc = 0x30 then denseSegs d tile
  else sparseSegs d (if kind = 1 then r.copy else if kind = 2 then r.behind else r.rows) tile

/-- The tiles of a sweep of a descriptor. -/
def Run.sweepTiles (r : Run) (d : Desc) : Nat := if r.opc = 0x30 then d.tiles else sparseTiles d.pitch (runRows r.rows)

/-- The accumulator tiles that a tile of a sweep reads. -/
def Run.accTiles (r : Run) (d : Desc) (tile : Nat) : List Nat := ((r.sweepSegs d 0 tile).map (fun g => g.1 / 8192)).eraseDups

/-- The accumulator tiles that a tile of a sweep has now read to the end (R81, R268): those that no later tile of it reads, and that no tile
without a result should have read. -/
def Run.readOut (r : Run) (d : Desc) (tile : Nat) : List Nat :=
  (r.accTiles d tile).filter (fun t =>
    !(tile + 1 < r.sweepTiles d && (r.accTiles d (tile + 1)).contains t) && !r.unread.contains t)

/-- A tile of a sweep without a result has not read its accumulator tiles (R268). -/
def Run.missed (r : Run) (d : Desc) (tile : Nat) : Run := { r with unread := r.unread ++ r.accTiles d tile }

/-- A descriptor's last tile is done: its taps are written and the extents that it fed are complete (R190, R207). A sweep that has read every
tile of it ends a replay sweep (R81). -/
def State.sweepLast (s : State) (r : Run) (d : Desc) : State × Run :=
  let (s, bad) := s.writeTaps d.idx r.step r.taps
  let s := if r.unread.isEmpty then s.sweptAll d.idx else s
  let s := (List.range 8).foldl (fun s k =>
    if (List.range 8).any (fun p => s.fab.resident.outProg d.variant p == some k) then s.extentDone k d.idx else s) s
  (s, { r with taps := [], t := { r.t with descs := r.t.descs + 1, check := r.t.check || bad } })

/-- The rows that a tile of a sweep wrote, noted for the forward list (R182). -/
def State.noteRows (s : State) (d : Desc) (segs : List (Nat × Nat)) : State :=
  if !d.stamped then s
  else s.markRows d.idx (touchedRuns (segs.filterMap (fun g => let (lo, n) := d.rowsOfSeg g; if n = 0 then none else some (lo, lo + n - 1))))

/-- A tile of a sweep completed (R58, R178, R182, R186, R191). -/
def State.sweepComplete (s : State) (r : Run) (j : Job) : State × Run :=
  let d := s.latchedDesc j.desc j.words
  let t := s.fab.resident
  let v := s.variantOf d
  let segs := r.sweepSegs d j.kind j.tile
  let last := j.kind = 0 && j.tile + 1 = r.sweepTiles d
  let hold := fun (s : State) (r : Run) (nan : Bool) =>
    let (s, new) := s.holdDesc r.step j.desc nan
    (s, { r with t := { r.t with held := r.t.held + new.toNat } })
  let s := s.joinSweep r d
  if j.fault != 0 then
    let (s, r) := hold s { (if j.kind = 0 then r.missed d j.tile else r) with t := r.t.absent j.fault } false
    if last then s.sweepLast r d else (s, r)
  else if j.kind != 0 then
    match (segs.flatMap (copyRanges t v d d.role)).find? (fun (a, n) => s.lineBad a n),
        (segs.flatMap (copyRanges t v d d.umber)).find? (fun (a, n) => s.mergeBad a n) with
    | none, none =>
      let rows := (segs.filter (fun g => g.1 % d.pitch = 0)).length
      if j.kind = 1 then
        (segs.foldl (fun s g => s.copySeg t v d g) s, { r with t := { r.t with extra := r.t.extra + rows } })
      else
        let (s, nan) := segs.foldl (fun (s, nan) g => let (s, x) := s.catchSeg t v d r.step g; (s, (nan <|> x))) (s, none)
        let s := s.noteRows d segs
        let stat := (s.statBad v d.idx).isSome && (bankedRoles.filter d.has).any (fun role => (s.decayOf d role).isSome)
        let r := { r with t := { r.t with extra2 := r.t.extra2 + rows, check := r.t.check || stat } }
        match nan with
        | none => (s, r)
        | some (x : CatchNan) =>
          let s := s.captureNan ⟨.uq, x.cell, x.op, x.site, d.idx, x.pos % 8192 % s.lanes, r.seq, x.pos / 8192, x.x, kxZero, kxZero⟩
          if s.b oNanPolicy 0 then (s, r) else hold s { r with t := { r.t with nan := true } } true
    | x, y =>
      let (a, n) := (x <|> y).getD (0, 0)
      hold (s.lineFault (some .uq) r.seq d.idx j.tile 0x24 (s.badAddr a n)) { r with t := { r.t with check := true } } false
  else
    let (s, found, taps) := s.sweepTile r j d segs
    let (ts, o) := addTaps r.taps taps
    let s := s.kxFlag o
    let r := { r with taps := ts, t := { r.t with tiles := r.t.tiles + 1, check := r.t.check || found.check || found.stat } }
    let (s, r) := if found.check then hold s r false else (s, r)
    let (s, r) := if found.nan && !s.b oNanPolicy 0 then hold s { r with t := { r.t with nan := true } } true else (s, r)
    let r := if found.check then r.missed d j.tile else r
    let s := if found.check then s else ((r.readOut d j.tile).foldl (fun s t => s.markSwept d.idx t) s).noteRows d segs
    if last then s.sweepLast r d else (s, r)

end Sys2Proof.Machine
end

