-- ==== Sys2Proof/Machine/Convert.lean ====
section
/-! DEFINITION. Conversion into generation and compute formats (R289, R293, R295, R307): blocks with scales of their own,
keyed dither, what each element counts. -/
namespace Sys2Proof.Machine

/-- An element on its way through a conversion: its decoded source and the index that keyed dither takes; none for padding
and void positions, which are written as +0 (R290, R307). -/
abbrev ConvIn := Option (Dec × Nat)

/-- The outcome of converting some positions: codes, scale codes, counts, and the places that counted NAN. -/
structure ConvOut where
  codes  : List Nat
  scales : List Nat
  counts : Counts
  nans   : List Nat          -- keyed indices of the elements that counted NAN
  deriving DecidableEq, Repr

/-- GFMT and GBLK are allowed (R94, R289). -/
def convOk (gfmt gblk : Nat) : Bool :=
  gfmt != 2 && gblk < 7 && (match fmtOf gfmt with | some f => f.blkOk (gblk != 0) | none => false)

/-- What a conversion is run with: format, whether blocks carry scales, whether OVF_FORCE turns its SAT sites to NAN mode
(R106), dither, KEY_SEED, step and tensor of R130. -/
structure ConvCfg where
  f      : Fmt
  scaled : Bool
  nanOvf : Bool
  dither : Bool
  seed   : Word
  step   : Nat
  tensor : Nat
  deriving DecidableEq, Repr

/-- One block converted (R95, R105, R293, R307): each element counts at most once in each counter. -/
def convBlock (c : ConvCfg) (xs : List ConvIn) : ConvOut :=
  let vals := xs.map (fun x => match x with | some (d, _) => d.v | none => kxZero)
  let sc := if c.scaled then some (blockScale c.f vals) else none
  let es := xs.map (fun x => match x with
    | some (d, p) =>
      let dth := if c.dither && c.f.canDither then some (ditherOf (fld (keyedWord c.seed c.step c.tensor p 1) 15 0)) else none
      encodeElem c.f d.v sc c.nanOvf dth
    | none => encodeElem c.f kxZero sc false none)
  let whole := c.scaled && !c.f.hasNaN && es.any (·.nan)
  let per := List.zipWith (fun (x : ConvIn) (e : Enc) => x.map (fun (d, p) => (d, p, e))) xs es
  let cnt := per.foldl (fun n x => match x with
    | some (d, _, e) => addCounts n ⟨1, e.ovf.toNat, (d.vanish || e.vanish).toNat, (d.nan || e.nan || whole).toNat, d.viol.toNat⟩
    | none => n) zeroCounts
  let nans := per.filterMap (fun x => match x with
    | some (d, p, e) => if d.nan || e.nan || whole then some p else none
    | none => none)
  ⟨if whole then es.map (fun _ => 0) else es.map (·.code), if whole then [255] else (sc.map (fun n => [n])).getD [], cnt, nans⟩

/-- Positions converted block by block; blk 0 has no scales. -/
def convRun (c : ConvCfg) (blk : Nat) (xs : List ConvIn) : ConvOut :=
  (if blk = 0 then [xs] else blocksOf blk xs.length xs).foldl (fun o b =>
    let n := convBlock c b
    ⟨o.codes ++ n.codes, o.scales ++ n.scales, addCounts o.counts n.counts, o.nans ++ n.nans⟩) ⟨[], [], zeroCounts, []⟩

/-- An element that a tile without data gives (R295): NaN, counted. -/
def lostElem : Dec := ⟨kxNaN, false, true, false⟩

/-- The configuration of a conversion at this instance; the flag asks for dither (R131, R293). -/
def State.convCfg (s : State) (f : Fmt) (gblk : Nat) (flag : Bool) (step tensor : Nat) : ConvCfg :=
  ⟨f, gblk != 0, nanMode (numCfgOf (s.reg oNumCfg)) 0, flag && !(numCfgOf (s.reg oNumCfg)).noDither, s.reg oKeySeed, step, tensor⟩

/-- n elements of the source of a conversion from position p: the Slate copy, or Ivory W in the bank given. -/
def State.convSrc (s : State) (slate : Bool) (d : Desc) (bank p n : Nat) : List Dec :=
  if slate then s.readElems .kw16 (slateAddr d) 0 0 p n else s.readRole s.fab.resident (s.variantOf d) d 0 bank p n

/-- The ranges that such a read touches. -/
def State.convRanges (s : State) (slate : Bool) (d : Desc) (bank : Nat) (seg : Nat × Nat) : List (Nat × Nat) :=
  if slate then [(slateAddr d + 2 * seg.1, 2 * seg.2)] else roleRanges s.fab.resident (s.variantOf d) d 0 bank seg

/-- The tile size of a conversion's source role, and of its output (R232). -/
def State.convTile (s : State) (slate : Bool) (d : Desc) : Nat :=
  if slate then fmtTileBytes .kw16 0 else tileBytes s.fab.resident (s.variantOf d) d 0

/-- The rings of a service engine that converts, by the bytes of a tile: source, conversion, output (R230). -/
def svcGroup (pair src mid out : Nat) : List GRing :=
  [⟨svc pair, slotTiles 0 src, false⟩, ⟨svc (pair + 1), slotTiles 0 mid, true⟩, ⟨svc (pair + 2), slotTiles 0 out, true⟩]

/-- The rings of a conversion into a format on three service pairs (R230). -/
def convGroup (pair src : Nat) (gfmt gblk : Nat) : List GRing :=
  let out := match fmtOf gfmt with | some f => fmtTileBytes f (blkSize gblk) | none => 0
  svcGroup pair src out out

/-- The place of a position in the runs of a tile. -/
def placeIn (p : Nat) : List (Nat × Nat) → Nat
  | [] => 0
  | g :: t => if g.1 ≤ p ∧ p < g.1 + g.2 then p - g.1 else g.2 + placeIn p t

/-- The NaN events of converted elements, one for each source tile, captured with CELL 0x80, OPCODE 0x00 and SITE 0x40 (R192,
R294); `lane` gives the lane of a position. -/
def State.convNans (s : State) (q : Queue) (seq tensor : Nat) (lane : Nat → Nat) (ps : List Nat) : State :=
  ((ps.map (· / 8192)).eraseDups).foldl (fun s t =>
    let p := (ps.find? (fun p => p / 8192 = t)).getD 0
    s.captureNan ⟨q, 0x80, 0, 0x40, tensor, lane p, seq, t, kxNaN, kxZero, kxZero⟩) s

/-- The result of R300 from a tally. -/
def Tally.convResult (t : Tally) : Nat :=
  if t.poison then 0x21 else if t.timeout then 0x23 else if t.check then 0x24 else if t.nan then 0x20
  else if t.drops != 0 then 0x01 else if t.recovered then 0x03 else 0x00

end Sys2Proof.Machine
end

