-- ==== Sys2Proof/Machine/Regions.lean ====
section
/-! DEFINITION. Parameter Space by region (R282, R323, R324, R326, R327): which bytes belong to banked arrays, to Slate, to
engine private memory, and which of them the host may write. -/
namespace Sys2Proof.Machine

/-- The descriptors whose entry in the table is not as reset left it. -/
def State.liveDescs (s : State) : List Nat :=
  ((s.mem.takeWhile (fun e => e.1 < 0x400000)).map (fun e => e.1 / 64)).eraseDups

/-- The banked arrays of a descriptor in one bank, with their scales and stamps (R56, R171). -/
def bankArrays (t : Tvd) (v : Variant) (d : Desc) (bank : Nat) : List (Nat × Nat) :=
  (bankedRoles.filter d.has).map (fun role => (roleAddr t v d role bank,
    roundUp (roleElemBytes t v d role) 256 + roleScaleBytes t v d role)) ++
  (if d.stamped then [(stampAddr d bank, 2 * d.rows)] else [])

/-- The descriptor and bank whose banked array a range meets, if one does; the lowest descriptor first (R60). -/
def State.bankedAt (s : State) (a n : Nat) : Option (Desc × Nat) :=
  s.liveDescs.findSome? (fun i =>
    let d := s.desc i
    let v := s.variantOf d
    [0, 1].findSome? (fun b =>
      if (bankArrays s.fab.resident v d b).any (fun (x, m) => overlap a n x m) then some (d, b) else none))

/-- A range meets the Slate copy of a descriptor (R61, R171). -/
def State.slateAt (s : State) (a n : Nat) : Bool :=
  s.liveDescs.any (fun i => let d := s.desc i; d.slate && overlap a n (slateAddr d) (2 * d.positions))

/-- Base address and size of each Cyan buffer, from the live registers (R281). -/
def State.cyanBase (s : State) (b : Bool) : Nat :=
  s.f oCyanBase 47 21 * 2 ^ 21 + (if b then s.f oCyanGeom 15 0 * 2 ^ 21 else 0)

/-- Size of a Cyan buffer (R281). -/
def State.cyanSize (s : State) : Nat := s.f oCyanGeom 15 0 * 2 ^ 21

/-- Base of the Cyan view (R281). -/
def State.cyanView (s : State) : Nat := s.f oCyanGeom 47 21 * 2 ^ 21

/-- The parts of engine private memory that host software writes, beside descriptor words 0 to 6 (R326, R327). -/
def hostParts : List (Nat × Nat) :=
  [(0x400000, 0x10000000), (0x26000000, 0x4000000), (0x2A400000, 0x200000), (0x2A600000, 0x200000), (0x2B000000, 0x2000),
   (0x38000000, 0x1000000)]

/-- A byte of engine private memory or of the mapping table is protected from host writes (R170, R326). -/
def privProtected (a : Nat) : Bool :=
  a < 0xC0000000 && (if a < 0x400000 then 56 ≤ a % 64 else !hostParts.any (fun (x, n) => x ≤ a && a < x + n))

/-- A landing zone or target of a command lies where R261 and R324 allow: in populated memory outside engine private
memory, the mapping table and banked arrays. -/
def State.landingOk (s : State) (a n : Nat) : Bool := n = 0 || (rangeOk (s.reg oTierMap) a n && (s.bankedAt a n).isNone)

end Sys2Proof.Machine
end

