-- ==== Sys2Proof/Machine/Cyan.lean ====
section
/-! DEFINITION. Re-sharding (R281 to R305, R308): the layout map, the Cyan buffers, RESHARD, EMIT_CYAN, multicast, lag and
catch-up. In a RESHARD's or EMIT_CYAN's Run, `desc` is the next map entry, `tile` the place of the next route in it, `rows` the
slots converted and not sent yet (entry, offset), `phase` is 1 when the first of them has been withheld, `copy` the first lane and L of each
route of the entry that has completed, `info` the ending code and after it the source tiles without data as 2^32 × entry + tile. Its jobs and ring entries carry the entry as `desc` and the place of
the route as `tile`. -/
namespace Sys2Proof.Machine

/-- An entry of a layout map (R289). -/
structure MapEntry where
  src   : Nat
  dset  : Nat
  desc  : Nat
  gfmt  : Nat
  gblk  : Nat
  slate : Bool
  pitch : Nat
  row0  : Nat
  col0  : Nat
  nrows : Nat
  ncols : Nat
  dofs  : Nat
  rsv   : Nat
  deriving DecidableEq, Repr

/-- The number of sets of a map (R288). -/
def mapSets (m : List Byte) : Nat := leAt m 6 2

/-- The number of entries of a map (R288). -/
def mapCount (m : List Byte) : Nat := leAt m 8 4

/-- MAP_ID of a map (R288). -/
def mapId (m : List Byte) : Nat := leAt m 16 2

/-- The members of set i of a map, ascending (R288). -/
def mapSet (m : List Byte) (i : Nat) : List Nat :=
  let v := leAt m (64 + 32 * i) 32
  (List.range 256).filter (fun k => v.testBit k)

/-- Entry e of a map (R289). -/
def mapEntry (m : List Byte) (e : Nat) : MapEntry :=
  let a := 64 + 32 * mapSets m + 32 * e
  let w := fun i => BitVec.ofNat 64 (leAt m (a + 8 * i) 8)
  { src := fld (w 0) 63 56, dset := fld (w 0) 55 48, desc := fld (w 0) 47 32, gfmt := fld (w 0) 31 28, gblk := fld (w 0) 27 25
    slate := bit (w 0) 24, pitch := fld (w 0) 23 0, row0 := fld (w 1) 63 32, col0 := fld (w 1) 31 0, nrows := fld (w 2) 63 32
    ncols := fld (w 2) 31 0, dofs := fld (w 3) 47 0, rsv := fld (w 3) 63 48 }

/-- Element bytes of a piece (R290). -/
def MapEntry.elemBytes (e : MapEntry) : Nat :=
  match fmtOf e.gfmt with | some f => e.nrows * (e.pitch * f.bits / 8) | none => 0

/-- Scale bytes of a piece (R290). -/
def MapEntry.scaleBytes (e : MapEntry) : Nat :=
  if blkSize e.gblk = 0 then 0 else e.nrows * (e.pitch / blkSize e.gblk)

/-- Size of a piece (R290). -/
def MapEntry.size (e : MapEntry) : Nat := roundUp e.elemBytes 256 + e.scaleBytes

/-- Offsets of a piece's slots of 64 KiB (R301). -/
def MapEntry.slots (e : MapEntry) : List Nat := (List.range (cdiv e.size 65536)).map (65536 * ·)

/-- The whole live layout map, with its length as the header gives it (R288, R292). -/
def State.liveMap (s : State) : List Byte :=
  let h := s.bytes 0x2A200000 64
  s.bytes 0x2A200000 (64 + 32 * (leAt h 6 2 + leAt h 8 4))

/-- RESIDENT_ID (R287). -/
def State.mapResident (s : State) : Nat := s.f oLayoutCheck 63 48

/-- The entries of a map that name an instance as their source, with the Slate entries or the Ivory entries (R297). -/
def localEntries (m : List Byte) (me : Nat) (slate : Bool) : List Nat :=
  (List.range (mapCount m)).filter (fun i => let e := mapEntry m i; e.src = me && e.slate == slate)

/-- The members other than an instance itself that receive an entry (R301). -/
def entryReceivers (m : List Byte) (me i : Nat) : List Nat := (mapSet m (mapEntry m i).dset).filter (· != me)

/-- The slots of some entries that go to a receiver, in order (R301). -/
def slotsFor (m : List Byte) (es : List Nat) (dest : Nat) : List (Nat × Nat) :=
  (es.filter (fun i => (mapSet m (mapEntry m i).dset).contains dest)).flatMap (fun i => (mapEntry m i).slots.map (fun o => (i, o)))

/-! The buffers -/

/-- Register of a Cyan buffer: false is A (R284). -/
def oCyan (b : Bool) : Nat := if b then oCyanStatb else oCyanStata

/-- A Cyan buffer beside its register. -/
def State.cyanBuf (s : State) (b : Bool) : CyanBuf := if b then s.cyan.b else s.cyan.a

/-- A Cyan buffer replaced. -/
def State.setCyanBuf (s : State) (b : Bool) (x : CyanBuf) : State :=
  { s with cyan := if b then { s.cyan with b := x } else { s.cyan with a := x } }

/-- The serving buffer (R282, R284). -/
def State.serving (s : State) : Bool := s.b oCyanStatb 8

/-- The live CYAN_BUILD and CYAN_READ (R37). -/
def State.cyanBuild (s : State) : Bool := s.b oProfileWork 17
def State.cyanRead (s : State) : Bool := s.b oProfileWork 16

/-- STATE of a buffer (R283). -/
def State.cyanState (s : State) (b : Bool) : Nat := s.f (oCyan b) 15 12

/-- The serving buffer changed (R284, R285). -/
def State.setServing (s : State) (b : Bool) : State := (s.setB oCyanStata 8 (!b)).setB oCyanStatb 8 b

/-- What a member expects from each source of a map (R292). -/
def expectedFrom (m : List Byte) (me : Nat) : List SrcBytes :=
  (List.range (mapCount m)).foldl (fun acc i =>
    let e := mapEntry m i
    if !(mapSet m e.dset).contains me then acc
    else if acc.any (fun (x : SrcBytes) => x.src = e.src) then
      acc.map (fun x => if x.src = e.src then { x with expected := x.expected + e.size } else x)
    else acc ++ [⟨e.src, e.size, 0, [], false⟩]) []

/-- The round that a buffer was opened for last (R284). -/
def State.lastRound (s : State) (b : Bool) (mapId step : Nat) : Bool :=
  s.cyanState b != 0 && s.f (oCyan b) 31 16 = mapId && s.f (oCyan b) 63 32 = step

/-- A buffer holds a round whose data it still takes (R299). -/
def State.holdsRound (s : State) (b : Bool) (mapId step : Nat) : Bool :=
  (s.cyanState b = 1 || s.cyanState b = 3) && s.lastRound b mapId step

/-- A member has local commands in a round of a map (R283, R297): some entry names it as the source. -/
def hasSources (m : List Byte) (me : Nat) : Bool := (List.range (mapCount m)).any (fun i => (mapEntry m i).src = me)

/-- A round opened on a buffer (R283, R284, R297, R299), by the own RESHARD or a message. A member that has no source entry has no local
command to wait for. -/
def State.openRound (s : State) (b : Bool) (mapId step : Nat) (own : Bool) : State :=
  let w := setFld (setFld (setFld (setFld (s.reg (oCyan b)) 63 32 step) 31 16 mapId) 15 12 1) 7 0 0
  (s.setReg (oCyan b) w).setCyanBuf b ⟨expectedFrom s.liveMap s.me, !own && !hasSources s.liveMap s.me, own, s.beat⟩

/-- STATE of a buffer brought up to date (R283, R304): COMPLETE, or LAGGING. -/
def State.cyanSettle (s : State) (b : Bool) : State :=
  let x := s.cyanBuf b
  if !(s.cyanState b = 1 || s.cyanState b = 3) || !x.localDone then s
  else if x.srcs.all (fun r => r.expected ≤ r.received) then s.setF (oCyan b) 15 12 2
  else if s.cyanState b = 1 && x.srcs.any (fun r => r.detached && r.received < r.expected) then
    (s.setF (oCyan b) 15 12 3).setCyanBuf b { x with lastData := s.beat }
  else s

/-- Bytes of a round received from a source into a buffer; a slot that has come before counts once (R82, R283). -/
def State.cyanGot (s : State) (b : Bool) (src entry ofs n : Nat) : State :=
  let x := s.cyanBuf b
  let srcs := x.srcs.map (fun r =>
    if r.src = src && !r.got.contains (entry, ofs) then { r with received := r.received + n, got := r.got ++ [(entry, ofs)] } else r)
  (s.setCyanBuf b { x with srcs := srcs, lastData := s.beat }).cyanSettle b

/-- The serving buffer at a beat boundary (R285). -/
def State.cyanSwitch (s : State) : State :=
  if s.serving != s.cyanRead && s.cyanState s.cyanRead = 2 then s.setServing s.cyanRead else s

/-! Conversion of an entry -/

/-- The source tiles that hold a position of an entry's rectangle: its routes (R291). -/
def MapEntry.routes (e : MapEntry) (d : Desc) : List Nat :=
  ((List.range e.nrows).flatMap (fun k =>
    let p := d.posOf (e.row0 + k) e.col0
    (List.range ((p + e.ncols - 1) / 8192 + 1 - p / 8192)).map (p / 8192 + ·))).eraseDups

/-- The runs of positions of an entry's rectangle within a tile. -/
def MapEntry.segsIn (e : MapEntry) (d : Desc) (t : Nat) : List (Nat × Nat) :=
  (List.range e.nrows).filterMap (fun k =>
    let p := d.posOf (e.row0 + k) e.col0
    let lo := max p (8192 * t)
    let hi := min (p + e.ncols) (8192 * t + 8192)
    if lo < hi then some (lo, hi - lo) else none)

/-- A piece converted from a bank (R290, R293, R295); `lost` are source tiles without data. -/
def State.convEntry (s : State) (e : MapEntry) (d : Desc) (bank step : Nat) (dither : Bool) (lost : List Nat) : ConvOut :=
  match fmtOf e.gfmt with
  | none => ⟨[], [], zeroCounts, []⟩
  | some f =>
    let lost := lost ++ (e.routes d).filter (fun t => ((e.segsIn d t).flatMap (s.convRanges e.slate d bank)).any (fun (a, n) => s.lineBad a n))
    (List.range e.nrows).foldl (fun o k =>
      let p := d.posOf (e.row0 + k) e.col0
      let row := List.zipWith (fun i (x : Dec) => some ((if lost.contains ((p + i) / 8192) then lostElem else x), p + i))
        (List.range e.ncols) (s.convSrc e.slate d bank p e.ncols)
      let n := convRun (s.convCfg f e.gblk dither step d.idx) (blkSize e.gblk) (row ++ List.replicate (e.pitch - e.ncols) none)
      ⟨o.codes ++ n.codes, o.scales ++ n.scales, addCounts o.counts n.counts, o.nans ++ n.nans⟩) ⟨[], [], zeroCounts, []⟩

/-- The bytes of a piece (R290). What stands between the elements and the next 256-byte boundary is a free value (assumption
log 3). -/
def State.pieceBytes (s : State) (e : MapEntry) (o : ConvOut) : List Byte :=
  let es := match fmtOf e.gfmt with | some f => packCodes f o.codes | none => []
  es ++ (List.range (roundUp e.elemBytes 256 - es.length)).map (fun i => Config.freeByte (e.dofs + es.length + i) s.freeCtr) ++
    o.scales.map (BitVec.ofNat 8)

/-- Address of an entry's emit record (R294). -/
def emitRec (e : Nat) : Nat := 0x2A400000 + 64 * e

/-- The bank of a descriptor that a round bound. -/
def bankIn (bs : List (Nat × Nat)) (d : Nat) : Nat := ((bs.find? (·.1 == d)).map (·.2)).getD 0

/-- The source of an entry as a round reads it: its descriptor and bank. -/
def State.entrySrc (s : State) (bs : List (Nat × Nat)) (e : MapEntry) : Desc × Nat := (s.desc e.desc, bankIn bs e.desc)

/-! Multicast -/

/-- Entries of the send ring (R230). -/
def sendSlots : Nat := 4

/-- The entry number under which a round-open stands in the send ring, and is acknowledged. -/
def openEntry : Nat := 0xFFFF

/-- Ring entries that every receiver has acknowledged freed, the oldest first (R236, R301). -/
def freeSent : List SentSlot → List SentSlot
  | [] => []
  | e :: t => if e.waiting.isEmpty then freeSent t else e :: t

/-- The send ring changed, with the ring of engine 28 that holds it (R230, R301): `freed` entries have left it. -/
def State.setSent (s : State) (l : List SentSlot) (freed : Nat) : State :=
  let r := s.ring (svc 112)
  let user := match s.run .sq with | some x => userId .sq x.seq | none => r.user
  let es := l.map (fun e => (⟨e.entry, e.ofs / 65536, 1, 1, 1, 0, false, user, false⟩ : RingEntry))
  let s := { s with cyan := { s.cyan with ring := l } }
  if l.length = r.entries.length ∧ freed = 0 then s
  else s.moveRing (svc 112) { r with entries := es, retire := (r.retire + freed) % 32, user := user }

/-- The entries that every receiver has acknowledged leave the send ring (R236, R301). -/
def State.freeSentRing (s : State) (l : List SentSlot) : State := s.setSent (freeSent l) (l.length - (freeSent l).length)

/-- lag of a receiver (R302). -/
def State.lagOf (s : State) (r : Receiver) : Nat := (s.cyan.ring.filter (fun e => e.waiting.contains r.inst)).length + r.charges

/-- The data of one slot of a piece. -/
def State.slotData (s : State) (m : List Byte) (bs : List (Nat × Nat)) (step : Nat) (dither : Bool) (lost : List Nat)
    (entry ofs : Nat) : List Byte :=
  let e := mapEntry m entry
  let (d, bank) := s.entrySrc bs e
  ((s.pieceBytes e (s.convEntry e d bank step dither lost)).drop ofs).take 65536

/-- The source tiles of an entry that a run found without data. -/
def Run.lostTiles (r : Run) (entry : Nat) : List Nat :=
  (r.info.drop 1).filterMap (fun x => if x / 2 ^ 32 = entry then some (x % 2 ^ 32) else none)

/-- Slots converted sent while the send ring has room (R301, R302). When it is full, the next slot is withheld and charged once; the slots
after it are not converted yet then (assumption log 35). -/
def State.sendSlotsOf : Nat → State → Run → State × Run
  | 0, s, r => (s, r)
  | n + 1, s, r =>
    match r.rows with
    | [] => (s, r)
    | (entry, ofs) :: rest =>
      let m := s.cyan.boundMap
      let dests := (entryReceivers m s.me entry).filter (fun i => s.cyan.receivers.any (fun x => x.inst = i && x.attached))
      if dests.isEmpty then State.sendSlotsOf n s { r with rows := rest, phase := 0 }
      else if s.cyan.ring.length < sendSlots then
        let bs := match s.cyan.bound with | some (_, _, bs) => bs | none => []
        let data := s.slotData m bs r.step (r.fld 12 1 % 2 = 1) (r.lostTiles entry) entry ofs
        let s := s.send (.slot dests (mapId m) r.step entry ofs data)
        let s := s.setSent (s.cyan.ring ++ [⟨entry, ofs, dests⟩]) 0
        State.sendSlotsOf n s { r with rows := rest, phase := 0, t := { r.t with extra := r.t.extra + 1 } }
      else if r.phase = 1 then (s, r)
      else
        let slow := match s.cyan.ring with | e :: _ => e.waiting | [] => []
        let rs := s.cyan.receivers.map (fun x => if slow.contains x.inst then { x with charges := x.charges + 1 } else x)
        ({ s with cyan := { s.cyan with receivers := rs } }, { r with phase := 1 })

/-- The piece of an entry written into the local build buffer (R290). -/
def State.writePiece (s : State) (b : Bool) (e : MapEntry) (o : ConvOut) : State :=
  let a := s.cyanBase b + e.dofs
  match fmtOf e.gfmt with
  | none => s
  | some f =>
    let s := s.put a (packCodes f o.codes)
    if o.scales.isEmpty then s else s.put (a + roundUp e.elemBytes 256) (o.scales.map (BitVec.ofNat 8))

/-- The lane that a position of an entry's rectangle entered with its route (R110, R294). -/
def Run.routeLane (r : Run) (e : MapEntry) (d : Desc) (p : Nat) : Nat :=
  let x := nth (0, 1) r.copy (((e.routes d).idxOf? (p / 8192)).getD 0)
  (x.1 + placeIn p (e.segsIn d (p / 8192))) % max 1 x.2

/-- An entry whose last source tile has been read: converted, counted, written locally, its slots ready to send (R290, R293,
R294). A buffer that holds another round by now does not take it (R299). -/
def State.entryDone (s : State) (r : Run) (entry : Nat) : State × Run :=
  let m := s.cyan.boundMap
  let e := mapEntry m entry
  match s.cyan.bound with
  | none => (s, r)
  | some (step, b, bs) =>
    let (d, bank) := s.entrySrc bs e
    let o := s.convEntry e d bank step (r.fld 12 1 % 2 = 1) (r.lostTiles entry)
    let a := emitRec entry
    let gone := (entryReceivers m s.me entry).filter (fun i => s.cyan.receivers.any (fun x => x.inst = i && !x.attached))
    let s := s.addCountsAt a { o.counts with viol := 0 }
    let s := ((s.storeNum (a + 20) 4 step).storeNum (a + 24) 2 (mapId m)).storeNum (a + 26) 2 gone.length
    let s := ((s.numStat o.counts false).convNans .sq r.seq e.desc (r.routeLane e d) o.nans).recordFault .sq r.seq e.desc 0 a 64
    let mine := (mapSet m e.dset).contains s.me
    let wr := [(s.cyanBase b + e.dofs, e.size)]
    let bad := mine && wr.any (fun (x, n) => s.mergeBad x n)
    let s := if !mine || !s.lastRound b (mapId m) step || !(s.pagesOf wr).all (fun i => (s.page i).served) then s
      else if bad then s.writePiece b e o
      else (s.writePiece b e o).cyanGot b s.me entry 0 e.size
    (s, { r with copy := [], rows := r.rows ++ (if (entryReceivers m s.me entry).isEmpty then [] else e.slots.map (fun ofs => (entry, ofs)))
                 t := { r.t with nan := r.t.nan || o.counts.nan != 0, check := r.t.check || s.lineBad a 64 || bad } })

/-- What the streams of an entry read (R291, R293). -/
def State.emitFeed (s : State) (e : MapEntry) (d : Desc) (bank : Nat) : Feed :=
  let ts := e.routes d
  { tiles := ts.length, reads := fun _ i => (e.segsIn d (nth 0 ts i)).flatMap (s.convRanges e.slate d bank) }

/-- The stream group of an entry (R230, R245). -/
def State.emitGroup (s : State) (e : MapEntry) (d : Desc) : List GRing := convGroup 108 (s.convTile e.slate d) e.gfmt e.gblk

/-- Routes issued, entry by entry; the next entry waits until the slots of the one before have gone (R293, R297, R301). -/
def State.emitIssue : Nat → State → Run → State × Run
  | 0, s, r => (s, r)
  | n + 1, s, r =>
    let (s, r) := s.sendSlotsOf 65536 r
    if !s.mayIssue .sq r || !r.rows.isEmpty then (s, r)
    else
      let m := s.cyan.boundMap
      match (localEntries m s.me (r.opc = 0x40)).find? (fun i => r.desc ≤ i), s.cyan.bound with
      | some entry, some (_, b, bs) =>
        let e := mapEntry m entry
        let c := s.descCheck e.desc
        if r.tile = 0 && c != 0 then
          ((if c = 0x24 then s.badControl .sq r e.desc (64 * e.desc) 64 else s), { r with issued := true, info := c :: r.info.drop 1 })
        else
          let (d, bank) := s.entrySrc bs e
          let ts := e.routes d
          match ts[r.tile]? with
          | none => State.emitIssue n s { r with desc := entry + 1, tile := 0 }
          | some t =>
            let k := (e.segsIn d t).foldl (fun k g => k + g.2) 0
            let wr := if (mapSet m e.dset).contains s.me then [(s.cyanBase b + e.dofs, e.size)] else []
            match s.issue .sq r 0 entry r.tile k (s.descWords e.desc) (s.emitFeed e d bank) wr (s.emitGroup e d) with
            | (s, .sent) =>
              if r.tile + 1 < ts.length then State.emitIssue n s { r with desc := entry, tile := r.tile + 1 }
              else (s, { r with desc := entry + 1, tile := 0 })
            | (s, _) => (s, r)
      | _, _ => (s, { r with issued := true })

/-- The round's bank is released once its EMIT_CYAN has completed; catch-ups keep their own (R298). -/
def State.emitEnd (s : State) (r : Run) : State :=
  if !r.rows.isEmpty || s.cyan.ring.any (fun e => e.entry != openEntry && !e.waiting.isEmpty) then s
  else
    let code := if nth 0 r.info 0 != 0 then nth 0 r.info 0
      else ({ r.t with drops := r.t.extra2 } : Tally).convResult
    let s : State := if r.opc = 0x40 then
        let s := s.setRing (svc 112) { s.ring (svc 112) with user := 0 }
        { s with cyan := { s.cyan with reshardOk := true } }
      else match s.cyan.bound with
        | some (step, b, _) =>
          let s := s.setSent [] s.cyan.ring.length
          let s := if s.lastRound b (mapId s.cyan.boundMap) step then s.setCyanBuf b { s.cyanBuf b with localDone := true } else s
          ({ s with cyan := { s.cyan with reshardOk := false, bound := none, receivers := [] } } : State).cyanSettle b
        | none => s
    s.complete .sq r code [r.t.tiles, r.t.extra, sat16 r.t.extra2 * 65536 + sat16 r.t.replayed, r.step]

/-- RESHARD or EMIT_CYAN carried on. -/
def State.emitGo (s : State) (r : Run) : State :=
  let (s, r) := s.emitIssue issueMax r
  s.keepOrEnd .sq r State.emitEnd

/-- A route completed (R291, R295). -/
def State.emitComplete (s : State) (r : Run) (j : Job) : State × Run :=
  let m := s.cyan.boundMap
  let e := mapEntry m j.desc
  match s.cyan.bound with
  | none => (s, r)
  | some (_, _, bs) =>
    let (d, bank) := s.entrySrc bs e
    let t := nth 0 (e.routes d) j.tile
    let rd := (e.segsIn d t).flatMap (s.convRanges e.slate d bank)
    let bad := rd.find? (fun (a, n) => s.lineBad a n)
    let mark := j.desc * 2 ^ 32 + t
    let lost := fun (s : State) (r : Run) =>
      (({ s with cyan := { s.cyan with catchups := s.cyan.catchups.map (fun c => if c.seq = r.seq then { c with lost := c.lost ++ [mark] } else c) } } : State),
        { r with info := (if r.info.isEmpty then [0] else r.info) ++ [mark] })
    let (s, r) : State × Run := if j.fault != 0 then lost s { r with t := r.t.absent j.fault }
      else match bad with
        | some (a, n) =>
          lost (s.lineFault (some .sq) r.seq d.idx t 0x24 (s.badAddr a n)) { r with t := { r.t with check := true } }
        | none => (s, r)
    let r := { r with copy := r.copy ++ [(j.lane, j.lanes)], t := { r.t with tiles := r.t.tiles + 1 } }
    let (s, r) := if j.tile + 1 = (e.routes d).length then s.entryDone r j.desc else (s, r)
    s.sendSlotsOf 65536 r

/-- Catch-ups of a receiver that was detached between two commands belong to the next one, whose slots they replace (R299, R303). -/
def State.adoptCatchups (s : State) (r : Run) : State :=
  { s with cyan := { s.cyan with catchups := s.cyan.catchups.map (fun c =>
      if c.seq = 2 ^ 32 then { c with seq := r.seq, dither := r.opc = 0x41 && r.fld 12 1 % 2 = 1 } else c) } }

/-- RESHARD and EMIT_CYAN at evaluation (R296 to R299). A RESHARD joins the round that a message has opened, unless its own commands of that
round have run: then it opens a new one. -/
def State.emitEval (s : State) (r : Run) : State :=
  let id := r.fld 8 2
  let b := s.cyanBuild
  if s.mapResident = 0 || id != s.mapResident || s.cyanSize = 0 then s.complete .sq r 0x2F []
  else if b = s.serving then s.complete .sq r 0x16 []
  else if r.opc = 0x41 && !(s.cyan.reshardOk && s.cyan.boundMap = s.liveMap) then s.complete .sq r 0x2F []
  else if r.opc = 0x41 then
    let step := match s.cyan.bound with | some (n, _, _) => n | none => s.stepNow
    let rs := s.cyan.receivers.map (fun x => { x with attached := !x.out, charges := 0 })
    let r := { r with step := step, bound := true, t := { r.t with extra2 := (rs.filter (·.out)).length } }
    (({ s with cyan := { s.cyan with receivers := rs } } : State).adoptCatchups r).setRun .sq (some r)
  else
    let m := s.liveMap
    let es := (List.range (mapCount m)).filter (fun i => (mapEntry m i).src = s.me)
    let ds := (es.map (fun i => (mapEntry m i).desc)).eraseDups
    let dests := ((es.flatMap (entryReceivers m s.me)).eraseDups).insertionSort (fun a b => a ≤ b)
    let step := s.stepNow
    let x := s.cyanBuf b
    let s := if s.lastRound b id step && !x.ran then s.setCyanBuf b { x with localDone := false, ran := true }
      else s.openRound b id step true
    let s := s.setF (oCyan b) 15 12 1
    let s := { s with cyan := { s.cyan with
      bound := some (step, b, ds.map (fun d => (d, (s.desc d).role))), boundMap := m, reshardOk := false
      receivers := dests.map (fun i => ⟨i, true, 0, false, false⟩) } }
    let s := s.setSent [] s.cyan.ring.length
    let s := if dests.isEmpty then s else s.setSent [⟨openEntry, 0, dests⟩] 0
    let s := dests.foldl (fun s i => s.send (.roundOpen i id step)) s
    (s.adoptCatchups r).setRun .sq (some { r with step := step, bound := true })

/-- The running RESHARD or EMIT_CYAN, if one runs. -/
def State.emitRun (s : State) : Option Run :=
  match s.run .sq with
  | some r => if r.opc = 0x40 || r.opc = 0x41 then some r else none
  | none => none

/-- A running RESHARD or EMIT_CYAN carried on after the send ring has moved. -/
def State.emitStep (s : State) : State := match s.emitRun with | some r => (s.emitGo r).settleHead .sq | none => s

/-- The first slot that a receiver has not acknowledged (R302): in the send ring, else converted, else of an entry still in conversion. -/
def State.firstSlot (s : State) (r : Run) (all : List (Nat × Nat)) (inst : Nat) : Option (Nat × Nat) :=
  match s.cyan.ring.find? (fun e => e.entry != openEntry && e.waiting.contains inst) with
  | some e => some (e.entry, e.ofs)
  | none => match r.rows.find? (fun p => (entryReceivers s.cyan.boundMap s.me p.1).contains inst) with
    | some p => some p
    | none =>
      let next := (s.jobsOf .sq r.seq).foldl (fun n j => min n j.desc) r.desc
      all.find? (fun p => next ≤ p.1)

/-- A receiver detached (R294, R299, R302): out of every ring entry, noticed, its catch-up queued, recorded. Between the two commands of a
round it stays detached for the second. -/
def State.detach (s : State) (inst : Nat) : State :=
  match s.cyan.receivers.find? (fun x => x.inst = inst && x.attached), s.cyan.bound with
  | some x, some (step, _, bs) =>
    let m := s.cyan.boundMap
    let run := s.emitRun
    let all := slotsFor m (localEntries m s.me (run.any (·.opc = 0x40))) inst
    let first := match run with | some r => s.firstSlot r all inst | none => all.head?
    let todo := match first with | some p => all.dropWhile (· != p) | none => []
    let rest := (todo.map (·.1)).eraseDups
    let s := rest.foldl (fun s i => if s.num (emitRec i + 24) 2 = mapId m && s.num (emitRec i + 20) 4 = step
      then s.countMem (emitRec i + 26) 2 1 else s) s
    let c : Catchup := ⟨inst, (run.map (·.seq)).getD (2 ^ 32), run.any (fun r => r.fld 12 1 % 2 = 1), todo,
      (run.map (fun r => r.info.drop 1)).getD [], step, m, bs, x.opened, false, false, s.beat⟩
    let off := fun (y : Receiver) => if y.inst = inst then { y with attached := false, charges := 0, out := run.isNone } else y
    let s : State := { s with cyan := { s.cyan with receivers := s.cyan.receivers.map off, catchups := s.cyan.catchups ++ [c] } }
    let s := s.freeSentRing (s.cyan.ring.map (fun (e : SentSlot) => { e with waiting := e.waiting.filter (· != inst) }))
    let s := (s.count oMcStat 63 48 1).count oMcStat 15 0 1
    let s := (s.setReg oMcDetach (setFld (setFld 0#64 63 56 inst) 47 0 s.beat)).send (.detach inst)
    match run with
    | some r => (s.setRun .sq (some { r with t := { r.t with extra2 := r.t.extra2 + 1 } })).emitStep
    | none => s
  | _, _ => s

/-- A receiver's link has failed (R302, R411): its route leads to a port that is not up. -/
def State.linkDown (s : State) (inst : Nat) : Bool :=
  let e := s.num (0x3A000000 + inst) 1
  e / 128 = 1 && !s.b (oPlStat (e % 8)) 0

/-! Catch-up -/

/-- The running catch-up of a receiver replaced, or removed. -/
def changeCatchup (inst : Nat) (f : Catchup → Option Catchup) : List Catchup → List Catchup
  | [] => []
  | c :: t => if c.inst = inst && c.running then (match f c with | some x => x :: t | none => t) else c :: changeCatchup inst f t

/-- The running catch-up of a receiver replaced, or removed, in the state. -/
def State.setCatchup (s : State) (inst : Nat) (f : Catchup → Option Catchup) : State :=
  { s with cyan := { s.cyan with catchups := changeCatchup inst f s.cyan.catchups } }

/-- The source tiles of an entry as a catch-up finds their pages (R303): none while one of them is waited for, else those without data. -/
def State.catchupLost (s : State) (e : MapEntry) (d : Desc) (bank : Nat) : List Nat → State × Option (List Nat)
  | [] => (s, some [])
  | t :: ts =>
    match s.pageGo 3 ((e.segsIn d t).flatMap (s.convRanges e.slate d bank)) [] with
    | (s, .wait, _) => (s, none)
    | (s, pg, _) =>
      match s.catchupLost e d bank ts with
      | (s, some l) => (s, some (if pg = .go then l else t :: l))
      | (s, none) => (s, none)

/-- The slot at the front of a running catch-up sent, once its source pages are held (R303). -/
def State.catchupSend (s : State) (inst : Nat) : State :=
  match s.cyan.catchups.find? (fun c => c.inst = inst && c.running) with
  | some c =>
    match c.slots with
    | [] => s
    | (entry, ofs) :: _ =>
      if c.sent || !c.opened then s
      else
        let e := mapEntry c.map entry
        let (d, bank) := s.entrySrc c.banks e
        match s.catchupLost e d bank (e.routes d) with
        | (s, none) => s
        | (s, some gone) =>
          let lost := c.lost.filterMap (fun x => if x / 2 ^ 32 = entry then some (x % 2 ^ 32) else none)
          let data := s.slotData c.map c.banks c.step c.dither (lost ++ gone) entry ofs
          ((s.passRing (svc 114) 1).send (.slot [inst] (mapId c.map) c.step entry ofs data)).setCatchup inst (fun c => some { c with sent := true })
  | none => s

/-- A running catch-up ends when nothing of it is left (R303). -/
def State.catchupEnd (s : State) (inst : Nat) : State :=
  match s.cyan.catchups.find? (fun c => c.inst = inst && c.running) with
  | some c =>
    if c.opened && c.slots.isEmpty then
      ((s.count oMcStat 47 32 1).upd oMcStat (fun w => decFld w 15 0 1)).setCatchup inst (fun _ => none)
    else s
  | none => s

/-! The receiver -/

/-- A slot written into the buffer that holds its round, and acknowledged (R301); it waits for a page that is not held. -/
def State.takeSlot (s : State) (x : HeldSlot) : State :=
  match [false, true].find? (fun b => s.holdsRound b x.mapId x.step) with
  | none => s
  | some b =>
    let m := s.liveMap
    let e := mapEntry m x.entry
    if mapCount m ≤ x.entry || e.src != x.src || !(mapSet m e.dset).contains s.me || e.size < x.ofs + x.data.length then s
    else
      let a := s.cyanBase b + e.dofs + x.ofs
      match s.pageGo 3 [] [(a, x.data.length)] with
      | (s, .wait, _) => { s with cyan := { s.cyan with held := s.cyan.held ++ [x] } }
      | (s, .absent _, _) => s
      | (s, .go, _) =>
        if s.mergeBad a x.data.length then s.lineFault none 0 0xFFFF 0 0 (s.badAddr a x.data.length)
        else (((s.passRing (svc 113) 1).put a x.data).cyanGot b x.src x.entry x.ofs x.data.length).send (.slotAck x.src x.entry x.ofs)

/-- Slots that waited for a page tried again. -/
def State.retryHeld (s : State) : State :=
  s.cyan.held.foldl State.takeSlot { s with cyan := { s.cyan with held := [] } }

/-- The buffer in whose round a source takes part. -/
def State.roundOf (s : State) (src : Nat) : Option Bool :=
  [s.cyanBuild, !s.cyanBuild].find? (fun b =>
    (s.cyanState b = 1 || s.cyanState b = 3) && (s.cyanBuf b).srcs.any (fun x => x.src = src))

end Sys2Proof.Machine
end

