-- ==== Sys2Proof/Machine/MatrixCmd.lean ====
section
/-! DEFINITION. The MATRIX command (R204 to R222): homes, pairs, blocks, buffers, and the quantisation probe. -/
namespace Sys2Proof.Machine

/-- The format that OUT_FMT names (R210). -/
def MxProg.outFmt (m : MxProg) : Fmt := if fld m.p0 63 60 = 2 then .k32a else .kg16

/-- The rank r of KIND 0x02 (R210). -/
def MxProg.rank (m : MxProg) : Nat := fld m.p0 47 32

/-- Block height and width of a program over a home (R212, R215). -/
def MxProg.block (m : MxProg) (d : Desc) : Nat × Nat :=
  if m.kind = 1 then (2 ^ fld m.p0 55 52, 2 ^ fld m.p0 51 48)
  else if m.kind = 4 then (2 ^ fld m.p0 59 56, d.cols)
  else (d.rows, d.cols)

/-- Blocks of a home. -/
def MxProg.blocks (m : MxProg) (d : Desc) : Nat := let (h, w) := m.block d; cdiv d.rows h * cdiv d.cols w

/-- First row, rows, first column, columns of block b of a home: row group by row group, edge blocks short (R212, R215). -/
def MxProg.blockAt (m : MxProg) (d : Desc) (b : Nat) : Nat × Nat × Nat × Nat :=
  let (h, w) := m.block d
  let per := max 1 (cdiv d.cols w)
  let i := b / per * h
  let j := b % per * w
  (i, min h (d.rows - i), j, min w (d.cols - j))

/-- Bytes of statistic S before row block b (R209). -/
def MxProg.statOfs (m : MxProg) (b : Nat) : Nat := let bs := 2 ^ fld m.p0 59 56; b * (bs * bs * 4)

/-- The index of the pair of a home (R204). -/
def Run.pair (r : Run) (home : Nat) : Nat := (r.fld 18 2 + (home - r.fld 14 2)) % 65536

/-- The descriptor that keys a program's output extent for a home (R206). -/
def mxOutKey (m : MxProg) (r : Run) (home : Nat) : Nat := if m.kind = 2 then r.pair home else home

/-- One element of a role at row i and column j of a descriptor; ACC under R257. -/
def State.elemOf (s : State) (t : Tvd) (v : Variant) (d : Desc) (role bank step i j : Nat) : Dec :=
  let p := d.posOf i j
  let l := if role = 3 then s.readAcc d step (p / 8192 * 8192) (p % 8192 + 1) else s.readRole t v d role bank p 1
  nth ⟨kxZero, false, false, false⟩ l (if role = 3 then p % 8192 else 0)

/-- The elements of input j of a program over a block of a home (R199, R211, R214). -/
def State.mxInput (s : State) (k : Nat) (d : Desc) (step j i0 h j0 w : Nat) : List (List Dec) :=
  let t := s.fab.resident
  let v := s.variantOf d
  let rows := fun (f : Nat → Nat → Dec) => (List.range h).map (fun i => (List.range w).map (fun c => f (i0 + i) (j0 + c)))
  match t.mxIn k j with
  | .role role => rows (s.elemOf t v d role d.role step)
  | .port vn n =>
    match s.extent k d.idx, ((t.variant? vn).bind (fun x => siteFmt (x.site (8 + n)))) with
    | some e, some f => rows (fun i c => nth ⟨kxZero, false, false, false⟩ (s.readElems f e.addr 0 0 (d.posOf i c) 1) 0)
    | _, _ => rows (fun _ _ => ⟨kxZero, false, false, false⟩)
  | .none => []

/-- The values of decoded rows; a missing input contributes +0 (R211). -/
def mxVals (h w : Nat) (x : List (List Dec)) : Mat :=
  if x.isEmpty then List.replicate h (List.replicate w kxZero) else x.map (fun r => r.map (·.v))

/-- Counts of decoded rows (R105). -/
def decTotals (x : List (List Dec)) : Counts :=
  x.foldl (fun c r => r.foldl (fun c d => addCounts c (decCounts d)) c) zeroCounts

/-- Counts of encoded rows. -/
def encTotals (x : List (List Enc)) : Counts :=
  x.foldl (fun c r => r.foldl (fun c e => addCounts c (encCounts e)) c) zeroCounts

/-- A matrix encoded at a site in SAT mode without dither (R203). -/
def State.mxEncode (s : State) (f : Fmt) (m : Mat) : List (List Enc) :=
  let nm := nanMode (numCfgOf (s.reg oNumCfg)) 0
  m.map (fun r => r.map (fun x => encodeElem f x none nm none))

/-- Rows of encoded elements written at the positions of a descriptor from row i0 and column j0. -/
def State.mxStore (s : State) (f : Fmt) (addr : Nat) (d : Desc) (i0 j0 : Nat) (es : List (List Enc)) : State :=
  (List.zip (List.range es.length) es).foldl (fun s (i, row) =>
    (List.zip (List.range row.length) row).foldl (fun s (j, e) =>
      s.writeCodes f addr (d.posOf (i0 + i) (j0 + j)) [some e.code]) s) s

/-- Elements of a row-major array of the given width (R209). -/
def State.rowMajor (s : State) (f : Fmt) (addr rows cols : Nat) : List (List Dec) :=
  (List.range rows).map (fun i => s.readElems f addr 0 0 (i * cols) cols)

/-- A row-major array written. -/
def State.storeRowMajor (s : State) (f : Fmt) (addr cols : Nat) (es : List (List Enc)) : State :=
  (List.zip (List.range es.length) es).foldl (fun s (i, row) =>
    s.writeCodes f addr (i * cols) (row.map (fun e => some e.code))) s

/-- Address of a matrix site record of a home (R220). -/
def mxRec (d j : Nat) : Nat := 0x400000 + 4096 * d + 3328 + 128 * j

/-- Counts added at matrix site j of a home (R220). -/
def State.addMx (s : State) (d j : Nat) (c : Counts) : State :=
  if c.total = 0 && c.nan = 0 then s else (s.addCountsAt (mxRec d j) c).numStat c false

/-- The one NaN event of a block (R221): site record, logical row before R, and the operands with the accumulator. -/
structure MxEvent where
  site : Nat
  row  : Nat
  a    : KX
  b    : KX
  c    : KX
  deriving DecidableEq, Repr

/-- The first NaN of a list. -/
def nanAt (l : List KX) : Option Nat := (List.range l.length).find? (fun i => kxIsNaN (nth kxZero l i))

/-- The lowest NaN of a matrix in row-major order, among the columns that `ok` lets through. -/
def nanIn (ok : Nat → Bool) (a : Mat) : Option (Nat × Nat) :=
  (List.range a.length).findSome? (fun i =>
    let row := nth [] a i
    ((List.range row.length).find? (fun j => ok j && kxIsNaN (nth kxZero row j))).map (fun j => (i, j)))

/-- A column of a matrix. -/
def Mat.col (a : Mat) (j : Nat) : List KX := a.map (fun r => nth kxZero r j)

/-- The first origin of NaN at the lowest NaN element of a block's output (R221), in the order input decodes, state decode, products and
element steps, with the operands there. in0, in1 and st are the decoded inputs and the state, m0 and m1 the factors of R211, x its
result, or N for KIND 0x03; a NaN parameter of the program or the argument block stands as an element step on +0 (assumption log 7). -/
def mxOrigin (m : MxProg) (in0 in1 st : Mat) (m0 m1 : KX) (wide : Bool) (x : Mat) (res : MxRes) : MxEvent :=
  let hit := nanIn (fun _ => true) res.out
  let (i, j) := hit.getD (0, 0)
  let ok := fun c => m.kind = 1 || m.kind = 4 || hit.isNone || c = j
  let element : MxEvent := match res.nans with
    | (a, b) :: _ => ⟨29, i, a, b, kxZero⟩
    | [] => ⟨29, i, if kxIsNaN m0 then m0 else if kxIsNaN m1 then m1 else kxNaN, kxZero, kxZero⟩
  if m.kind = 3 then
    let row := nth [] st i
    let col := x.col j
    match nanAt col, nanAt row with
    | some k, _ => ⟨if in0.isEmpty then 25 else 24, i, nth kxZero row k, nth kxZero col k, mxAccAt m.passes false wide row col k⟩
    | none, some k => ⟨26, i, nth kxZero row k, nth kxZero col k, mxAccAt m.passes false wide row col k⟩
    | none, none => element
  else match nanIn ok in0, nanIn ok in1 with
    | some _, _ => ⟨24, i, m0, kxNaN, kxZero⟩
    | none, some (r, c) => ⟨25, i, m1, kxNaN, (kxMul m0 (Mat.at in0 r c)).1⟩
    | none, none =>
      if m.kind = 4 then (match nanIn (fun _ => true) st with
        | some _ => ⟨26, i, m.p0.setWidth 34, kxNaN, kxZero⟩
        | none => element)
      else if m.kind = 2 then
        let row := st.col i
        match nanAt row with
        | some k => ⟨26, i, nth kxZero row k, nth kxZero (x.col j) k, mxAccAt m.passes false true row (x.col j) k⟩
        | none => element
      else element

/-- The NaN event of a block reported (R192, R221). -/
def State.mxNan (s : State) (r : Run) (m : MxProg) (home block : Nat) (e : MxEvent) : State :=
  s.captureNan ⟨.uq, 0xC0 + m.program, m.kind, e.site, home, e.row % max 1 (s.f oMxStat 23 12), r.seq, block, e.a, e.b, e.c⟩

/-- The scale and elements of one probe block (R216); `nan` is the overflow mode (R106). -/
def probeBlock (f : Fmt) (nan scaled : Bool) (xs : List KX) : List Enc × Option Nat × Counts :=
  let sc := if scaled then some (blockScale f xs) else none
  let es := xs.map (fun x => encodeElem f x sc nan none)
  match sc with
  | none => (es, none, es.foldl (fun c e => addCounts c (encCounts e)) zeroCounts)
  | some c0 =>
    let (codes, c1, cs) := encodeBlock f es c0
    (List.zipWith (fun e c => { e with code := c }) es codes, some c1, cs)

/-- Rows of a matrix encoded in blocks along them and decoded again: Q, with the counts (R216). -/
def probeRows (f : Fmt) (nan : Bool) (blk : Nat) (w : Mat) : Mat × Counts :=
  w.foldl (fun (q, c) row =>
    let bs := (if blk = 0 then [row] else blocksOf blk row.length row).map (probeBlock f nan (blk != 0))
    let vals := bs.flatMap (fun (es, sc, _) => es.map (fun e => (decodeElem f e.code sc).v))
    (q ++ [vals], bs.foldl (fun c b => addCounts c b.2.2) c)) ([], zeroCounts)

/-- The probe's record (R216). -/
def State.probeRecord (s : State) (m : MxProg) (p : ProbeRes) (c : Counts) (step : Nat) : State × List Byte :=
  let (s, xs) := [p.errSsq, p.refSsq, p.errMax, p.refMax].foldl (fun (s, l) x => let (s, k) := s.encK x; (s, l ++ leBytes 4 k)) (s, [])
  (s, xs ++ leBytes 8 c.total ++ leBytes 4 c.sat ++ leBytes 4 c.vanish ++ leBytes 4 (c.nan + p.dNans) ++ leBytes 4 step ++
  leBytes 1 (fld m.p0 63 60) ++ leBytes 1 (fld m.p0 59 56) ++ List.replicate 22 0#8)

/-- One probe (R216): its record, and whether NaN reached it. Its decodes of W and of the calibration rows count in NUM_STAT alone, since it
writes nothing but its record. -/
def State.probe (s : State) (r : Run) (m : MxProg) (d : Desc) : State × Bool :=
  let t := s.fab.resident
  let v := s.variantOf d
  let n := r.fld 20 4
  let wd := (List.range d.rows).map (fun i => (List.range d.cols).map (fun j => s.elemOf t v d 0 d.role 0 i j))
  let w := mxVals d.rows d.cols wd
  let bs := s.ext (r.fld 32 6) (2 * n * d.cols)
  let ad := (List.range n).map (fun i => (List.range d.cols).map (fun j => decodeElem .kg16 (leAt bs (2 * (i * d.cols + j)) 2) none))
  let nm := nanMode (numCfgOf (s.reg oNumCfg)) 0
  let f := (fmtOf (fld m.p0 63 60)).getD .k4
  let blk := blkSize (fld m.p0 59 57)
  let (q, c) := if bit m.p0 56 then let (x, c) := probeRows f nm blk (transpose d.cols w); (transpose d.rows x, c)
    else probeRows f nm blk w
  let p := mxKind5 (mxVals n d.cols ad) w q
  let out := r.fld 40 6 + 64 * (d.idx - r.fld 14 2)
  let (s, bs) := s.probeRecord m p c d.step
  let s := if s.populated out 64 then s.put out bs else s
  let s := (s.numStat (decTotals wd) false).numStat (decTotals ad) false
  (s.numStat { c with nan := c.nan + p.dNans } p.ovf, c.nan + p.dNans != 0)

/-- One block of KIND 0x01 to 0x04 (R211 to R215, R220, R221); the answer says whether a site counted NaN. -/
def State.mxBlock (s : State) (r : Run) (m : MxProg) (d : Desc) (b : Nat) : State × Bool :=
  let t := s.fab.resident
  let v := s.variantOf d
  let (i0, h, j0, w) := m.blockAt d b
  let (a0, oa) := s.argA0 (r.fld 13 1 % 2 = 1) r.args d.idx r.step
  let mul := fun (j : Nat) => let x := nth kxZero r.args (1 + j); if t.mxIn m.program j == .role 3 then kxProd (x, oa) [(a0, false)] else (x, false)
  let pd := s.desc (r.pair d.idx)
  let src := if m.kind = 3 then pd else d
  let (h', w') := if m.kind = 3 then (pd.rows, pd.cols) else (h, w)
  let in0 := s.mxInput m.program src r.step 0 i0 h' j0 w'
  let in1 := s.mxInput m.program src r.step 1 i0 h' j0 w'
  let ((m0, o0), (m1, o1)) := (mul 0, mul 1)
  let (x, ox) := Sys2Proof.Machine.mxInput m0 m1 (mxVals h' w' in0) (mxVals h' w' in1)
  let ox := m.kind != 3 && (ox || o0 || o1)
  let aux := fun bank => roleAddr t v d 4 bank
  let rank := if m.kind = 2 then m.rank else pd.rows
  let st := if m.kind = 2 ∨ m.kind = 3 then s.rowMajor .kg16 (aux d.role) d.rows rank
    else if m.kind = 4 then s.rowMajor .k32a (aux d.role + m.statOfs b) h h else []
  let sv := st.map (fun row => row.map (·.v))
  let refresh := r.fld 13 1 / 2 % 2 = 1
  let n0 := if m.kind = 3 then mxVals h' w' (if in0.isEmpty then in1 else in0) else x
  let wide := match t.mxIn m.program (if in0.isEmpty then 1 else 0) with
    | .port vn n => ((t.variant? vn).bind (fun y => siteFmt (y.site (8 + n)))) == some .k32a
    | .role role => d.roleFmt role == some .k32a
    | .none => false
  let res : MxRes :=
    if m.kind = 1 then
      mxKind1 m.passes m.iter ((m.block d).2 < (m.block d).1) (m.p0.setWidth 34) (m.p1.setWidth 34) (m.p2.setWidth 34)
        (kxPow2 (-(fld m.p1 63 56 : Int))).1 x (flattenPos d.order (2 ^ d.align) x)
    else if m.kind = 2 then mxKind2 m.passes m.iter m.rank (kxPow2 (-(fld m.p1 63 56 : Int))).1 refresh x sv
    else if m.kind = 3 then mxKind3 m.passes wide sv n0
    else mxKind4 m.passes m.iter (m.p0.setWidth 34) (m.p1.setWidth 34) x sv
  let es := s.mxEncode m.outFmt res.out
  let (c0, c1, c2, c3) := (decTotals in0, decTotals in1, decTotals st, encTotals es)
  let s := match t.mxOutRole m.program with
    | some role => s.mxStore m.outFmt (roleAddr t v d role d.umber) d i0 j0 es
    | none => match s.extent m.program (mxOutKey m r d.idx) with
      | some e => if m.kind = 2 then s.mxStore m.outFmt e.addr pd 0 0 es else s.mxStore m.outFmt e.addr d i0 j0 es
      | none => s
  let (s, c4) := match res.state with
    | some ns =>
      let f := if m.kind = 4 then Fmt.k32a else Fmt.kg16
      let ss := s.mxEncode f ns
      (s.storeRowMajor f (aux d.umber + (if m.kind = 4 then m.statOfs b else 0)) (if m.kind = 4 then h else rank) ss, encTotals ss)
    | none =>
      if m.kind = 2 then (s.put (aux d.umber) (s.bytes (aux d.role) (2 * d.rows * rank)), zeroCounts) else (s, zeroCounts)
  let els : Counts := { zeroCounts with nan := res.nans.length }
  let s := [(0, c0), (1, c1), (2, c2), (3, c3), (4, c4), (5, els)].foldl (fun s (j, c) => s.addMx d.idx j c) s
  let s := s.numStat zeroCounts (res.ovf || ox)
  if [c0, c1, c2, c3, c4, els].any (fun c => c.nan != 0) then
    let vals := fun (y : List (List Dec)) => y.map (fun row => row.map (fun e => e.v))
    (s.mxNan r m d.idx b (mxOrigin m (vals in0) (vals in1) sv m0 m1 wide (if m.kind = 3 then n0 else x) res), true)
  else (s, false)

/-- The homes of a MATRIX. -/
def Run.homes (r : Run) : List Nat := (List.range (r.fld 16 2 + 1 - r.fld 14 2)).map (r.fld 14 2 + ·)

/-- The layout rules of R205 item 3 but for the buffers: a home or pair unsound, a shape limit broken, a home written
already. The code is 0 when all hold. -/
def State.mxLayout (s : State) (r : Run) (m : MxProg) : Nat × Nat :=
  let paired := m.kind = 2 || m.kind = 3
  let ds := r.homes.flatMap (fun h => if paired then [h, r.pair h] else [h])
  match s.firstBad ds with
  | some (d, code) => (d, code)
  | none =>
    let ok := r.homes.all (fun h =>
      let d := s.desc h
      let p := s.desc (r.pair h)
      let (bh, bw) := m.block d
      (m.kind != 1 || (min bh bw ≤ 512 && bh * bw ≤ 524288)) &&
      (m.kind != 2 || (p.rows = m.rank && p.cols = d.cols && (r.fld 13 1 / 2 % 2 = 0 || d.rows * m.rank ≤ 524288) &&
        d.fmtIdx 4 = 1)) &&
      (m.kind != 3 || (p.rows ≤ 512 && p.cols = d.cols && d.fmtIdx 4 = 1)) &&
      (m.kind != 4 || d.fmtIdx 4 = 2) &&
      (m.kind != 5 || (1 ≤ r.fld 20 4 && r.fld 20 4 ≤ 4096 && d.has 0)) &&
      (m.kind = 5 || !s.step.mxRuns.contains (m.program, h)) &&
      ([0, 1].all (fun j => match s.fab.resident.mxIn m.program j with
        | .port _ _ => (s.extent m.program (if m.kind = 3 then r.pair h else h)).isSome
        | _ => true)))
    (0, if ok then 0 else 0x16)

/-- MATRIX at evaluation (R205 to R207). -/
def State.matrixEval (s : State) (r : Run) : State :=
  let step := r.fld 8 4
  let s := { s with fab := { s.fab with mxHeld := none } }
  match s.fab.resident.prog? (r.fld 12 1) with
  | none => s.complete .uq r 0x15 []
  | some m =>
    if s.f oMxStat 23 12 = 0 then s.complete .uq r 0x2F []
    else if m.kind = 5 && step != 0 || m.kind != 5 && step != (s.stepNow + 1) % 2 ^ 32 then s.complete .uq r 0x2F []
    else match s.mxLayout r m with
      | (d, 0x24) => (s.badControl .uq r d (64 * d) 64).complete .uq r 0x24 []
      | (_, 0) =>
        let need := if m.kind = 5 || (s.fab.resident.mxOutRole m.program).isSome then []
          else r.homes.map (fun h => (mxOutKey m r h, packedBytes m.outFmt (s.desc (mxOutKey m r h)).positions))
        if (s.reserve m.program r.seq true need).isNone then s.complete .uq r 0x16 []
        else s.withArgs .uq r (r.fld 24 6) (fun s args => match s.reserve m.program r.seq true need with
          | some s => s.setRun .uq (some { r with args := args, step := step, desc := r.fld 14 2 })
          | none => s.complete .uq r 0x16 [])
      | (_, code) => s.complete .uq r code []

/-- The runs of positions that hold a rectangle of a descriptor, `n` the places of the elements in the order of its layout (R172). -/
def rectSegs (d : Desc) (i0 h j0 w : Nat) : List (Nat × Nat) :=
  let g := if d.order then 2 ^ d.align else 1
  ((List.range h).filter (fun k => k = 0 || (i0 + k) % g = 0)).map (fun k =>
    let last := min (i0 + h - 1) ((i0 + k) / g * g + g - 1)
    let a := d.posOf (i0 + k) j0
    (a, d.posOf last (j0 + w - 1) + 1 - a))

/-- The runs of positions of a block of a home. -/
def MxProg.segs (m : MxProg) (d : Desc) (b : Nat) : List (Nat × Nat) := let (i0, h, j0, w) := m.blockAt d b; rectSegs d i0 h j0 w

/-- The tiles that some runs of positions meet. -/
def tilesOf (segs : List (Nat × Nat)) : List Nat :=
  (segs.flatMap (fun (p, n) => (List.range ((p + n - 1) / 8192 + 1 - p / 8192)).map (p / 8192 + ·))).eraseDups

/-- What a read of ACC touches (R257): the fold map entries, and the accumulators of the tiles that the step has folded. -/
def State.accRanges (s : State) (d : Desc) (step : Nat) (segs : List (Nat × Nat)) : List (Nat × Nat) :=
  (tilesOf segs).flatMap (fun t => [(0x24800000 + 4 * ((d.accBase + 32768 * t) / 32768), 4)]) ++
    (segs.flatMap (fun (p, n) => (tilesOf [(p, n)]).map (fun t =>
      let a := max p (8192 * t)
      (a, min (p + n) (8192 * t + 8192) - a)))).filterMap (fun (a, n) =>
        if s.foldMap (d.accBase + 4 * (a / 8192 * 8192)) = step then some (d.accBase + 4 * a, 4 * n) else none)

/-- What a MATRIX reads at input j for a block of a home (R211, R214, R257). -/
def State.mxReads (s : State) (r : Run) (m : MxProg) (d : Desc) (b j : Nat) : List (Nat × Nat) :=
  let t := s.fab.resident
  let key := if m.kind = 3 then r.pair d.idx else d.idx
  let segs := if m.kind = 3 then [(0, (s.desc key).positions)] else m.segs d b
  match t.mxIn m.program j with
  | .role 3 => s.accRanges d r.step segs
  | .role role => segs.flatMap (roleRanges t (s.variantOf d) d role d.role)
  | .port v n => match s.extent m.program key, (t.variant? v).bind (fun x => siteFmt (x.site (8 + n))) with
    | some e, some f => segs.map (fun g => (e.addr + packedBytes f g.1, packedBytes f g.2))
    | _, _ => []
  | .none => []

/-- The state of a block in a bank (R209). -/
def State.mxState (s : State) (m : MxProg) (d : Desc) (b bank : Nat) : List (Nat × Nat) :=
  let t := s.fab.resident
  let a := roleAddr t (s.variantOf d) d 4 bank
  if m.kind = 2 ∨ m.kind = 3 then [(a, aux0Bytes t (s.variantOf d) d)]
  else if m.kind = 4 then let (_, h, _, _) := m.blockAt d b; [(a + m.statOfs b, 4 * h * h)] else []

/-- What a MATRIX reads for a block outside its input rings: its state, and what a probe reads. -/
def State.mxAside (s : State) (r : Run) (m : MxProg) (d : Desc) (b : Nat) : List (Nat × Nat) :=
  if m.kind = 5 then roleRanges s.fab.resident (s.variantOf d) d 0 d.role (0, d.positions) ++ [(r.fld 32 6, 2 * r.fld 20 4 * d.cols)]
  else s.mxState m d b d.role

/-- What a MATRIX writes for a block. -/
def State.mxWrites (s : State) (r : Run) (m : MxProg) (d : Desc) (b : Nat) : List (Nat × Nat) :=
  let t := s.fab.resident
  (match t.mxOutRole m.program with
   | some role => (m.segs d b).flatMap (roleRanges t (s.variantOf d) d role d.umber)
   | none =>
     if m.kind = 5 then [(r.fld 40 6 + 64 * (d.idx - r.fld 14 2), 64)]
     else match s.extent m.program (mxOutKey m r d.idx) with
       | some e => if m.kind = 2 then [(e.addr, e.len)] else (m.segs d b).map (fun g => (e.addr + packedBytes m.outFmt g.1, packedBytes m.outFmt g.2))
       | none => []) ++
  (if m.kind = 2 ∨ m.kind = 4 then s.mxState m d b d.umber else [])

/-- The bytes of a tile in a ring of a program (R232), for a home. -/
def State.mxTile (s : State) (r : Run) (m : MxProg) (d : Desc) (e : StreamE) : Nat :=
  let t := s.fab.resident
  let role := fun (x : Desc) n => tileBytes t (s.variantOf x) x n
  if e.producer = 0x70 + m.program then ((t.mxOutRole m.program).map (role d)).getD (fmtTileBytes m.outFmt 0)
  else match t.mxIn m.program (e.consumer % 2) with
    | .role n => role (if m.kind = 3 then s.desc (r.pair d.idx) else d) n
    | .port v n => (((t.variant? v).bind (fun x => siteFmt (x.site (8 + n)))).map (fmtTileBytes · 0)).getD 0
    | .none => 0

/-- The tiles of a block that pass through a ring of a program. -/
def State.mxTiles (s : State) (r : Run) (m : MxProg) (d : Desc) (b : Nat) (e : StreamE) : Nat :=
  let (_, h, _, w) := m.blockAt d b
  max 1 (cdiv (if m.kind = 3 && e.producer != 0x70 + m.program then (s.desc (r.pair d.idx)).positions else h * w) 8192)

/-- The streams of a program, and whether each takes its output. -/
def mxStreams (t : Tvd) (m : MxProg) : List (StreamE × Bool) :=
  t.streams.filterMap (fun e =>
    if e.consumer / 2 = 0x30 + m.program then some (e, false) else if e.producer = 0x70 + m.program then some (e, true) else none)

/-- The rings of a program (R155, R232, R236), with the blocks of a home that a slot holds. A block whose tiles fill more slots than one stands
as one entry until it completes, and its other slots pass through the ring then (assumption log 20). -/
def State.mxGroup (s : State) (r : Run) (m : MxProg) (d : Desc) : List GRing :=
  ⟨noRing, 1, false⟩ :: (mxStreams s.fab.resident m).map (fun (e, out) =>
    ⟨e.engine, max 1 (slotTiles e.slotLog2 (s.mxTile r m d e) / s.mxTiles r m d 0 e), out⟩)

/-- The slots of a block beyond the first pass through the rings of its program (R232). -/
def State.mxPass (s : State) (r : Run) (m : MxProg) (d : Desc) (b : Nat) : State :=
  (mxStreams s.fab.resident m).foldl (fun s (e, _) =>
    s.passRing e.engine (cdiv (s.mxTiles r m d b e) (slotTiles e.slotLog2 (s.mxTile r m d e)) - 1)) s

/-- What the streams of a MATRIX read for a home. -/
def State.mxFeed (s : State) (r : Run) (m : MxProg) (d : Desc) : Feed :=
  { tiles := m.blocks d
    reads := fun k b =>
      if k = noRing then s.mxAside r m d b
      else match s.fab.resident.streams.find? (fun e => e.engine = k && e.consumer / 2 = 0x30 + m.program) with
        | some e => s.mxReads r m d b (e.consumer % 2)
        | none => [] }

/-- A home's first block has issued: its descriptor is latched (R174), the step notes what writes it (R74), and a probe has bound its bank. -/
def State.mxLatched (s : State) (r : Run) (m : MxProg) : State × Run :=
  if r.latched.isSome then (s, r)
  else
    let ws := s.descWords r.desc
    (if m.kind = 5 then s else { s with step := { s.step with sweeps := s.step.sweeps ++ [⟨r.desc, ws, r⟩] } },
     { r with latched := some ws, banks := if m.kind = 5 then r.banks ++ [(r.desc, (s.desc r.desc).role)] else r.banks })

/-- Blocks of a MATRIX issued, until something makes the next one wait (R20, R205, R207). -/
def State.matrixIssue (m : MxProg) : Nat → State → Run → State × Run
  | 0, s, r => (s, r)
  | n + 1, s, r =>
    if !s.mayIssue .uq r then (s, r)
    else
      let c := if r.latched.isSome then 0 else s.descCheck r.desc
      if c != 0 then ((if c = 0x24 then s.badControl .uq r r.desc (64 * r.desc) 64 else s), r.endWith c)
      else if r.latched.isNone && s.fab.resident.mxReadsAcc m.program && s.divisorBad (r.fld 13 1 % 2 = 1) r.desc then
        (s.badControl .uq r r.desc (foldRec r.desc + 44) 8, r.endWith 0x24)
      else
        let ws := s.runWords r
        let d := s.latchedDesc r.desc ws
        let inOk := [0, 1].all (fun j => match s.fab.resident.mxIn m.program j with
          | .port _ _ => ((s.extent m.program (if m.kind = 3 then r.pair d.idx else d.idx)).map (·.complete)).getD false
          | _ => true)
        let g := s.mxGroup r m d
        let s := s.startRings .uq r.seq g
        let (s, free) := if m.kind = 5 then (s, true) else s.bankGo r.desc d.umber (d.tiles - 1)
        if !free || !inOk then (s, r)
        else match s.issue .uq r 0 r.desc r.tile 0 ws (s.mxFeed r m d) (s.mxWrites r m d r.tile) g with
          | (s, .sent) =>
            let (s, r) := s.mxLatched r m
            State.matrixIssue m n s (r.advance (m.blocks d) (r.fld 16 2))
          | (s, _) => (s, r)

/-- The completion of a MATRIX (R222). -/
def State.matrixEnd (s : State) (r : Run) : State :=
  let code := if r.aborting then 0x2F else if nth 0 r.info 0 = 0 then r.t.result else nth 0 r.info 0
  s.complete .uq r code [r.t.tiles, r.t.replayed, r.t.held, r.t.descs]

/-- A MATRIX carried on under the resident bit-stream (R205, R276). -/
def State.matrixOn (s : State) (r : Run) : State :=
  match s.fab.resident.prog? (r.fld 12 1) with
  | none => s.complete .uq r 0x2F []
  | some m =>
    let begun := r.latched.isSome || r.issued || r.desc != r.fld 14 2
    let lost := m.kind != 5 && !begun && s.grad.norm.timedOut.contains r.step && (s.kappa r.step).isNone && r.fld 13 1 % 2 = 0
    if s.fab.resident.mxReadsAcc m.program && m.kind != 5 && !s.stepClosed r.step then s
    else if lost then s.complete .uq r 0x22 []
    else
      let (s, r) := s.matrixIssue m issueMax r
      s.keepOrEnd .uq r State.matrixEnd

/-- A MATRIX carried on: to its completion with the program it started with (R164). -/
def State.matrixGo (s : State) (r : Run) : State :=
  match s.fab.mxHeld with
  | some t =>
    let s' := ({ s with fab := { s.fab with resident := t } } : State).matrixOn r
    { s' with fab := { s'.fab with resident := s.fab.resident } }
  | none => s.matrixOn r

/-- The ACC tiles that only a program reads and that a block of it has read to the end (R208): those that no later block reads. -/
def State.mxReadOut (s : State) (m : MxProg) (d : Desc) (b : Nat) : List Nat :=
  if s.fab.resident.mxReadsAcc m.program && (s.fab.resident.readSite d.variant 3).isNone then
    let later := (List.range (m.blocks d - (b + 1))).map (fun i => tilesOf (m.segs d (b + 1 + i)))
    (tilesOf (m.segs d b)).filter (fun t => !later.any (·.contains t))
  else []

/-- A block of a MATRIX has ended, `good` with its result written (R58, R205, R207, R208): then the home counts as written by the program, and the
accumulators that it read to the end are released. The home is in the commit set, and its last block completes its extent. -/
def State.blockWritten (s : State) (r : Run) (m : MxProg) (d : Desc) (b : Nat) (good : Bool) : State :=
  if m.kind = 5 then s
  else
    let s := if !good || s.step.mxRuns.contains (m.program, d.idx) then s
      else { s with step := { s.step with mxRuns := s.step.mxRuns ++ [(m.program, d.idx)] } }
    let s := if (s.fab.resident.mxOutRole m.program).isSome || m.kind = 2 || m.kind = 4 then s.joinSet d.idx false else s
    let only := s.fab.resident.mxReadsAcc m.program && (s.fab.resident.readSite d.variant 3).isNone
    let s := if good then (s.mxReadOut m d b).foldl (fun s t => s.markSwept d.idx t) s else s
    if b + 1 != m.blocks d then s
    else
      let s := s.extentDone m.program (mxOutKey m r d.idx)
      if only && good && !s.step.held.any (fun h => h.desc = d.idx && h.faulted) then s.sweptAll d.idx else s

/-- A block of a MATRIX completed (R220 to R222). -/
def State.matrixComplete (s : State) (r : Run) (j : Job) : State × Run :=
  match s.fab.resident.prog? (r.fld 12 1) with
  | none => (s, r)
  | some m =>
    let d := s.latchedDesc j.desc j.words
    let s := s.mxPass r m d j.tile
    let hold := fun (s : State) (r : Run) (nan : Bool) =>
      if m.kind = 5 then (s, r)
      else let (s, new) := s.holdDesc r.step j.desc nan; (s, { r with t := { r.t with held := r.t.held + new.toNat } })
    let rd := (List.range 2).flatMap (s.mxReads r m d j.tile) ++ s.mxAside r m d j.tile
    let bad := (rd.find? (fun (a, n) => s.lineBad a n)).orElse (fun _ => (s.mxWrites r m d j.tile).find? (fun (a, n) => s.mergeBad a n))
    let (s, r) := if j.fault != 0 then hold (s.blockWritten r m d j.tile false) { r with t := r.t.absent j.fault } false
      else match bad with
        | some (a, n) =>
          let s := (s.blockWritten r m d j.tile false).lineFault (some .uq) r.seq d.idx j.tile 0x24 (s.badAddr a n)
          hold s { r with t := { r.t with check := true } } false
        | none =>
          let (s, nan) := if m.kind = 5 then s.probe r m d else s.mxBlock r m d j.tile
          let s := s.blockWritten r m d j.tile true
          let recs := ((List.range 6).map (mxRec d.idx)).filter (fun a => s.lineBad a 128)
          let s := if m.kind = 5 then s else match recs with
            | a :: _ => s.recordFault .uq r.seq d.idx j.tile a 128
            | [] => s
          let r := { r with t := { r.t with tiles := r.t.tiles + 1, check := r.t.check || (m.kind != 5 && !recs.isEmpty) } }
          if nan && (m.kind = 5 || !s.b oNanPolicy 0) then hold s { r with t := { r.t with nan := true } } true else (s, r)
    (s, if j.tile + 1 = m.blocks d then { r with t := { r.t with descs := r.t.descs + 1 } } else r)

end Sys2Proof.Machine
end

