-- ==== Sys2Proof/Machine/Admission.lean ====
section
/-! DEFINITION. The admission arithmetic of CHECK (R25, R38 to R51, R113, R196, R218, R291, R430): worst-case beats of each deadline
as exact fractions, the lane and row floor, the four reports. -/
namespace Sys2Proof.Machine

/-- An exact fraction of natural numbers. -/
structure Frac where
  num : Nat
  den : Nat
  deriving DecidableEq, Repr

/-- A whole number. -/
def Frac.of (n : Nat) : Frac := ⟨n, 1⟩
def Frac.add (a b : Frac) : Frac := ⟨a.num * b.den + b.num * a.den, a.den * b.den⟩
def Frac.mul (a b : Frac) : Frac := ⟨a.num * b.num, a.den * b.den⟩
def Frac.le (a b : Frac) : Bool := a.num * b.den ≤ b.num * a.den
def Frac.max (a b : Frac) : Frac := if a.le b then b else a
def sumFrac (l : List Frac) : Frac := l.foldl Frac.add (Frac.of 0)
def maxFrac (l : List Frac) : Frac := l.foldl Frac.max (Frac.of 0)

/-- A count of beats without bound (R51): above every count that the arithmetic can give. -/
def noBound : Nat := 2 ^ 64

/-- ⌈a / c⌉ beats; work without capacity has no bound. -/
def Frac.beats (a c : Frac) : Nat :=
  if a.num = 0 then 0 else if c.num = 0 then noBound else min noBound (cdiv (a.num * c.den) (a.den * c.num))

/-- Field [hi:lo] of a register in a staged set. -/
def stf (st : FMap Word) (o hi lo : Nat) : Nat := fld (fget regDflt st o) hi lo

/-- The step set of a profile (R38). -/
def stepSet (st : FMap Word) : List Nat :=
  if stf st oProfileDeadlines 59 40 = 0 ∧ stf st oProfileSnap 43 20 = 0 then []
  else
    let lo := stf st oProfileWork 63 48
    (List.range (stf st oProfileWork 47 32 + 1 - lo)).map (lo + ·)

/-! Bytes of a tile -/

/-- Bytes per element of a format with blocks (R196). -/
def fmtBytes (f : Option Fmt) (blk : Nat) : Frac :=
  match f with
  | some f => (⟨f.bits, 8⟩ : Frac).add (if blkSize blk = 0 then Frac.of 0 else ⟨1, blkSize blk⟩)
  | none => Frac.of 0

/-- Bytes per element at a site. -/
def siteBytes (w : Word) : Frac := fmtBytes (siteFmt w) (siteBlk w)

/-- Stamp bytes per element: 2 / PITCH (R196). DESIGN CHOICE for ORDER 1, where R172 defines no PITCH: COLS rounded up to a multiple
of 2^ALIGN stands for it (assumption log 23). -/
def stampBytes (d : Desc) : Frac := if d.stamped && d.pitch != 0 then ⟨2, d.pitch⟩ else Frac.of 0

/-- Bytes per element that a sweep reads from some roles. -/
def readBytes (t : Tvd) (v : Variant) (want : Nat → Bool) : Frac :=
  sumFrac ((List.range 8).filterMap (fun n =>
    match t.inRole v.num n with | some r => if r < 6 && want r then some (siteBytes (v.site n)) else none | none => none))

/-- Bytes per element that a sweep writes to banked roles. -/
def writeBytes (t : Tvd) (v : Variant) : Frac :=
  sumFrac ((List.range 8).filterMap (fun n =>
    match t.outRole v.num n with
    | some r => if bankedRoles.contains r then some (siteBytes (v.site (8 + n))) else none
    | none => none))

/-- b of a descriptor (R43, R196). -/
def sweepBytes (t : Tvd) (v : Variant) (d : Desc) : Frac :=
  (((readBytes t v (fun _ => true)).add (stampBytes d)).add ((writeBytes t v).add (stampBytes d))).mul ⟨8192 * 100, 98⟩

/-- b_r of a descriptor (R43). -/
def tierBytes (t : Tvd) (v : Variant) (d : Desc) : Frac :=
  ((readBytes t v (fun r => r != 3)).add (stampBytes d)).mul (Frac.of 8192)

/-- b_s of a descriptor (R47). An AUX0 in a program's layout is shared out evenly over the tiles (assumption log 13). -/
def snapBytes (t : Tvd) (v : Variant) (d : Desc) : Frac :=
  let role := fun r =>
    if r = 4 && (auxProgram t v d).isSome then Frac.of (cdiv (aux0Bytes t v d) (max 1 d.tiles))
    else (fmtBytes (d.roleFmt r) (t.roleBlk v r)).mul (Frac.of 8192)
  let stamps := if d.stamped then 2 * d.mostRows else 0
  ((sumFrac ((bankedRoles.filter d.has).map role)).add (Frac.of stamps)).add (Frac.of (if d.slate then 16384 else 0))

/-! Matrix programs (R218) -/

/-- A program is counted (R218): it feeds a variant of the step set, or writes AUX1 of a descriptor of it; never KIND 0x05. -/
def progCounts (t : Tvd) (ds : List Desc) (m : MxProg) : Bool :=
  m.kind != 5 && ds.any (fun d => t.serves m d.variant (d.has 5))

/-- The homes that a program treats for the step set: the descriptors whose AUX0 holds its state for a KIND that keeps one, else
those that it feeds or whose AUX1 it writes (assumption log 34). -/
def progHomes (t : Tvd) (ds : List Desc) (m : MxProg) : List Desc :=
  ds.filter (fun d =>
    if m.kind = 2 ∨ m.kind = 4 then ((t.variant? d.variant).bind (fun v => auxProgram t v d)) == some m
    else t.serves m d.variant (d.has 5))

/-- The rank r that KIND 0x03 takes from the projector in a home's AUX0. -/
def projRank (t : Tvd) (d : Desc) : Nat :=
  match (t.variant? d.variant).bind (fun v => auxProgram t v d) with
  | some m => if m.kind = 2 then m.rank else 512
  | none => 512

/-- The format of input j of a program. -/
def progFmt (t : Tvd) (d : Desc) (m : MxProg) (j : Nat) : Option Fmt :=
  match t.mxIn m.program j with
  | .port vn n => (t.variant? vn).bind (fun y => siteFmt (y.site (8 + n)))
  | .role role => d.roleFmt role
  | .none => none

/-- Compute cycles of a program over a home at full rows (R217, R218); KIND 0x02 with REFRESH, its costlier form. -/
def progCycles (t : Tvd) (rmax : Nat) (m : MxProg) (d : Desc) : Nat :=
  let p := m.passes
  let (w1, ww) := (mxT1 p, mxTw p)
  let g := mxG rmax
  if m.kind = 1 then
    ((List.range (m.blocks d)).map (fun b =>
      let (_, h, _, w) := m.blockAt d b
      let (n, k) := (min h w, max h w)
      3 * mxE (n * k) + m.iter * (g n n k ww + g n n n ww + mxE (n * n) + g n k n ww))).foldl (· + ·) 0
  else if m.kind = 2 then
    let r := m.rank
    mxE (d.rows * d.cols) + g r d.cols d.rows w1 + mxE (r * d.cols) +
      (g d.cols r d.rows w1 + g d.rows r d.cols ww + 2 * mxE (d.rows * r) +
        m.iter * (g r r d.rows ww + g d.rows r r ww + mxE (d.rows * r)))
  else if m.kind = 3 then
    let r := projRank t d
    g d.rows d.cols r (if progFmt t d m 0 == some .k32a || progFmt t d m 1 == some .k32a then w1 else 1) + mxE (d.rows * d.cols)
  else
    ((List.range (m.blocks d)).map (fun b =>
      let (_, h, _, _) := m.blockAt d b
      g h h d.cols ww + 3 * mxE (h * h) + m.iter * (3 * g h h h ww + mxE (h * h)) + g h d.cols h ww +
        mxE (h * d.cols))).foldl (· + ·) 0

/-- Channel bytes of a program over a home, read and written (R218). -/
def progBytes (t : Tvd) (m : MxProg) (d : Desc) : Nat :=
  match t.variant? d.variant with
  | none => 0
  | some v =>
    let ins := ([0, 1].map (fun j => match t.mxIn m.program j with
      | .role r => roleElemBytes t v d r + roleScaleBytes t v d r
      | .port _ _ => (match progFmt t d m j with
        | some f => packedBytes f (if m.kind = 3 then projRank t d * d.cols else d.positions) | none => 0)
      | .none => 0)).foldl (· + ·) 0
    let state := if m.kind = 2 ∨ m.kind = 4 then 2 * aux0Bytes t v d else if m.kind = 3 then 2 * d.rows * projRank t d else 0
    ins + state + packedBytes m.outFmt (if m.kind = 2 then m.rank * d.cols else d.positions)

/-! Capacities -/

/-- What admission takes from a staged set and the clocks (R43, R430). -/
structure Caps where
  bc    : Nat
  cUq   : Frac
  cSq   : Frac
  cCold : Frac
  cPeer : Frac
  tSync : Nat
  pFix  : Nat
  extra : Nat
  deriving DecidableEq, Repr

/-- The capacities of R43 for a staged set. -/
def State.caps (s : State) (st : FMap Word) : Caps :=
  let lenK := stf st oBeatCfg 6 0
  let bc := lenK * 1024
  let mhz := s.f oClkCfg 10 0
  let k : Frac := if s.b oClkCfg 16 then ⟨99, 100⟩ else ⟨1, 1⟩
  let bBeat : Frac := ⟨4096 * bc * 1000, mhz⟩
  let share := fun hi lo => (bBeat.mul ⟨stf st oProfileShares hi lo, 256⟩).mul k
  { bc := bc, cUq := share 31 24, cSq := share 39 32
    cCold := ((⟨94 * 320 * bc, mhz⟩ : Frac).mul ⟨256 - stf st oProfileShares 47 40, 256⟩).mul k
    cPeer := (⟨1504000 * bc, mhz⟩ : Frac).mul k
    tSync := tSync (stf st oCommitGroup 47 40 + 1)
    pFix := cdiv 4608 bc
    extra := if lenK = s.f oBeatCfg 6 0 then 0 else 2 }

/-! Work -/

/-- The tier pages that some arrays touch, under a TIER_MAP (R323). -/
def tierPages (tm : Word) (rs : List (Nat × Nat)) : List Nat :=
  let n := fld tm 22 0
  (rs.flatMap (fun (a, len) =>
    if len = 0 ∨ a < 0x10000000000 ∨ 0x10000000000 + n * 2 ^ 21 ≤ a then []
    else
      let lo := (a - 0x10000000000) / 2 ^ 21
      (List.range ((a + len - 1 - 0x10000000000) / 2 ^ 21 + 1 - lo)).map (lo + ·))).eraseDups

/-- The work that admission counts in some descriptors under a bit-stream (R43). -/
structure Work where
  n    : Nat           -- N
  fab  : Nat           -- Σ N_v × p_v
  b    : Frac
  bR   : Frac
  bS   : Frac
  f    : Frac
  m    : Bool          -- a matrix program is used
  homes : List (MxProg × Desc)
  deriving DecidableEq, Repr

/-- The work of a step set (R43). A page counts as resident in state RESIDENT alone. -/
def State.workOf (s : State) (t : Tvd) (tm : Word) (frac : Nat) (set : List Nat) : Work :=
  let ds := set.map s.desc
  let vs := ds.filterMap (fun d => (t.variant? d.variant).map (fun v => (d, v)))
  let pages := tierPages tm (vs.flatMap (fun (d, v) => arraysOf t v d))
  let out := (pages.filter (fun i => (s.page i).st != .resident)).length
  let ps := t.programs.filter (progCounts t ds)
  { n := (ds.map Desc.tiles).foldl (· + ·) 0
    fab := (vs.map (fun (d, v) => d.tiles * v.passes)).foldl (· + ·) 0
    b := maxFrac (vs.map (fun (d, v) => sweepBytes t v d))
    bR := maxFrac (vs.map (fun (d, v) => tierBytes t v d))
    bS := maxFrac (vs.map (fun (d, v) => snapBytes t v d))
    f := Frac.max ⟨frac, 256⟩ (if pages.isEmpty then Frac.of 0 else ⟨out, pages.length⟩)
    m := !ps.isEmpty
    homes := ps.flatMap (fun m => (progHomes t ds m).map (fun d => (m, d))) }

/-- The tiles of a map's local source entries, with b_w and b_mc (R48, R291). -/
def State.mapWork (s : State) (t : Tvd) (map : List Byte) : Nat × Frac × Frac :=
  let es := ((List.range (mapCount map)).map (mapEntry map)).filter (fun e => e.src = s.me)
  let n := (es.map (fun e =>
    let d := s.desc e.desc
    d.posOf (e.row0 + e.nrows - 1) (e.col0 + e.ncols - 1) / 8192 + 1 - d.posOf e.row0 e.col0 / 8192)).foldl (· + ·) 0
  let out := fun (e : MapEntry) => fmtBytes (fmtOf e.gfmt) e.gblk
  let src := fun (e : MapEntry) =>
    let d := s.desc e.desc
    if e.slate then Frac.of 2
    else fmtBytes (d.roleFmt 0) (match t.variant? d.variant with | some v => t.roleBlk v 0 | none => 0)
  (n, maxFrac (es.map (fun e => ((src e).add (out e)).mul ⟨8192 * 100, 98⟩)), maxFrac (es.map (fun e => (out e).mul (Frac.of 8192))))

/-! Reports -/

/-- The report of a deadline (R51): worst-case beats, shortfall, result code, binding term. -/
structure Report where
  beats   : Nat
  short   : Nat
  result  : Nat
  binding : Nat
  deriving DecidableEq, Repr

/-- A deadline of 0 (R50). -/
def Report.off : Report := ⟨0, 0, 0, 0⟩

/-- The ADMIT_REPORT word (R51). -/
def Report.word (r : Report) : Word :=
  setFld (setFld (setFld (setFld 0#64 63 44 (min r.beats 0xFFFFF)) 43 24 r.short) 23 16 r.result) 15 12 r.binding

/-- A shortfall as R51 encodes it. -/
def shortOf (total limit : Nat) : Nat := if total ≥ noBound then 0xFFFFF else min (total - limit) 0xFFFFE

/-- A deadline judged (R49): terms as (binding code, beats) in the order of precedence. -/
def judge (limit : Nat) (terms : List (Nat × Nat)) (fixed mx lanes rows : Nat) : Report :=
  let (code, top) := terms.foldl (fun (x : Nat × Nat) t => if x.2 < t.2 then t else x) ((terms.head?).getD (1, 0))
  let total := min noBound (fixed + top + mx)
  let bind := if limit < fixed then 7 else if top < mx then 5 else code
  if total ≤ limit then ⟨total, 0, 0, bind⟩
  else
    let res := if (bind = 4 && lanes < 256) || (bind = 5 && rows < 128) then 0x12
      else if bind = 1 || bind = 2 || bind = 3 || bind = 6 then 0x11 else 0x10
    ⟨total, shortOf total limit, res, bind⟩

/-- Lanes and rows under a power budget (R45); none is a refusal with its BINDING. -/
def powerFloor (st : FMap Word) (m : Bool) : Nat ⊕ (Nat × Nat) :=
  let p := fun hi lo => stf st oAdmitPwr hi lo
  let budget := stf st oProfileWork 8 0
  let den := p 23 16 + (if m then p 31 24 else 0)
  let base := p 7 0 + p 15 8
  if base + den ≤ budget then .inr (256, 128)
  else if budget ≤ base then .inl 4
  else
    let l := 8 * (32 * (budget - base) / den)
    let r := 8 * (16 * (budget - base) / den)
    if l < 8 then .inl 4 else if m && r = 0 then .inl 5 else .inr (l, r)

/-- What admission gives: the code of STAGE_RESULT, the four reports, what was admitted (R45, R50). -/
structure Admitted where
  code    : Nat
  reports : List Report
  adm     : AdmitSt
  deriving DecidableEq, Repr

/-- Stages 2 and 3 of CHECK (R50) over a staged set, the bit-stream and the layout map it would make live. -/
def State.admission (s : State) (st : FMap Word) (t : Tvd) (map : List Byte) : Admitted :=
  let w := s.workOf t (fget regDflt st oTierMap) (stf st oProfileWork 31 24) (stepSet st)
  let (nSw, bW, bMc) := s.mapWork t map
  let adm : AdmitSt := ⟨stf st oBeatCfg 6 0, 0, 0, w.n, w.b.num, w.b.den, nSw⟩
  match powerFloor st w.m with
  | .inl bind => ⟨0x12, List.replicate 4 ⟨0, 0xFFFFF, 0x12, bind⟩, adm⟩
  | .inr (l, rows) =>
    let lanes := min l (s.f oFabStat 23 12)
    let c := s.caps st
    let rmax := s.f oMxStat 23 12
    let n := Frac.of w.n
    -- the step (R46)
    let tier := (w.f.mul n).mul w.bR
    let tChan := ((n.mul w.b).add tier).beats c.cUq
    let tTier := tier.beats c.cCold
    let tFab := (Frac.of (w.fab * 8192)).beats (Frac.of (lanes * c.bc))
    let chan := fun (x : MxProg × Desc) => ((Frac.of (progBytes t x.1 x.2)).mul ⟨100 * c.bc, 98⟩).mul ⟨c.cUq.den, c.cUq.num⟩
    let noCap := w.homes.any (fun x => rmax = 0 || (c.cUq.num = 0 && progBytes t x.1 x.2 != 0))
    let cost := sumFrac (w.homes.map (fun x => Frac.max (Frac.of (progCycles t rmax x.1 x.2)) (chan x)))
    let tMx := if w.homes.isEmpty then 0 else if noCap then noBound else cost.beats ⟨c.bc * rows, 128⟩
    let fixed := 2 * c.tSync + c.pFix + c.extra
    let tStep := min noBound (fixed + max tChan (max tTier tFab) + tMx)
    let step := stf st oProfileDeadlines 59 40
    let r0 := if step = 0 then Report.off
      else judge step [(1, tChan), (2, tTier), (4, tFab)] fixed tMx lanes rows
    -- the snapshot (R42, R47)
    let tiles := stf st oProfileSnap 43 20
    let period := stf st oProfileSnap 63 44
    let sb := (Frac.of tiles).mul w.bS
    let cSnap := c.cCold.mul (if tTier ≥ noBound then Frac.of 0 else ⟨tStep - tTier, tStep⟩)
    let r1 := if tiles = 0 then Report.off
      else judge (period + c.tSync) ([(1, sb.beats c.cSq), (3, sb.beats cSnap)] ++
        (if fld (fget regDflt st oProfileSnap) 16 16 = 1 then [(6, sb.beats c.cPeer)] else [])) (1 + c.extra) 0 lanes rows
    let r1 := if (tiles != 0 && period = 0) || (period != 0 && period < tStep) then
        { r1 with result := 0x10, binding := 0, short := if period = 0 then 0xFFFFF else shortOf tStep period }
      else r1
    -- the turn switch and the stash (R48)
    let sw := stf st oProfileDeadlines 39 20
    let k := Frac.of nSw
    let r2 := if sw = 0 then Report.off
      else judge sw [(1, (k.mul bW).beats c.cSq), (4, (Frac.of (nSw * 8192)).beats (Frac.of (lanes * c.bc))),
        (6, (k.mul bMc).beats c.cPeer)] (c.pFix + 2 + c.extra) 0 lanes rows
    let stash := stf st oProfileDeadlines 19 0
    let r3 := if stash = 0 then Report.off
      else judge stash [(1, (Frac.of (stf st oProfileSnap 15 0 * 2 ^ 20)).beats c.cSq)] (1 + c.extra) 0 lanes rows
    let rs := [r0, r1, r2, r3]
    ⟨((rs.find? (·.result != 0)).map (·.result)).getD 0, rs, { adm with lanes := lanes, rows := rows }⟩

end Sys2Proof.Machine
end

