-- ==== Sys2Proof/Machine/Check.lean ====
section
/-! DEFINITION. CHECK of a staged set (R22, R26, R32, R38, R50, R71, R106, R138, R160 to R163, R173, R277, R281, R286, R292, R305, R309,
R325, R337, R350, R351, R370, R435, R492): its first stage, in the order of R50, and what CHECK writes. Where the manual orders no two
checks, they stand in the order of their rules (assumption log 10). -/
namespace Sys2Proof.Machine

/-- What CHECK finds: the state (read faults recorded, the map copied), the code, the reports, TVD_CHECK, ENTRY and REASON of
LAYOUT_CHECK, the staged bit-stream it read, what it admitted. -/
structure CheckOut where
  s       : State
  code    : Nat
  reports : List Word
  tvd     : Word
  layout  : Nat × Nat
  file    : Option Tvd
  adm     : AdmitSt

/-- The instances whose staged GROUP_ID equals a number, as the latest messages say (R71); this one is not among them. -/
def State.stagedMates (s : State) (g : Nat) : List BeatMsg :=
  s.peer.adverts.filter (fun m => s.fresh m && m.staged.groupId = g && m.src != s.me)

/-- The latest message of an instance, if it still advertises. -/
def State.advertOf (s : State) (inst : Nat) : Option BeatMsg := s.peer.adverts.find? (fun m => m.src == inst && s.fresh m)

/-- SRAM left for the rings of bit-streams (R157, R363). -/
def State.ringSram (s : State) : Nat := ((s.res.sram.take 48).filter Option.isSome).length * 2 ^ 20

/-- The stream entry at which the rings of a bit-stream outgrow the SRAM that is left (R363, REASON 0x12). -/
def State.sramErr (s : State) (t : Tvd) : Option TvdErr :=
  ((List.range t.streams.length).find? (fun n =>
    s.ringSram < ((t.streams.take (n + 1)).map (fun e => e.slots * 2 ^ (16 + e.slotLog2))).foldl (· + ·) 0)).map
    (fun n => ⟨0xFFFE, n, 0xFF, 0x12⟩)

/-- The bit-stream that a staged set would make resident, or the violation in it (R160, R492). -/
def State.checkFile (s : State) (st : FMap Word) : State × (TvdErr ⊕ Tvd) :=
  let len := stf st oTvdLen 16 0
  let a := stf st oTvdAddr 47 3 * 8
  let fit := fun (t : Tvd) => match s.sramErr t with | some e => Sum.inl e | none => Sum.inr t
  if len = 0 then (s, fit s.fab.resident)
  else if s.lineBad a len then (s.lineFault none 0 0xFFFF 0 0x15 (s.badAddr a len), .inl ⟨0xFFFF, 0, 0xFF, 0x18⟩)
  else match checkTvd (s.ext a len) len with
    | .inl e => (s, .inl e)
    | .inr t => (s, fit t)

/-- A violation of the step set (R38, R161, R173, R325, R492). -/
def State.checkSet (s : State) (st : FMap Word) (t : Tvd) : List Nat → State × Option TvdErr
  | [] => (s, none)
  | d :: ds =>
    if s.lineBad (64 * d) 64 then (s.lineFault none 0 d 0 0x16 (s.badAddr (64 * d) 64), some ⟨0xFFFE, d, 0xFF, 0x19⟩)
    else
      let x := s.desc d
      match t.variant? x.variant with
      | none => (s, some ⟨0xFFFE, d, x.variant, 0x16⟩)
      | some v => if descValid t v (fget regDflt st oTierMap) x then s.checkSet st t ds else (s, some ⟨0xFFFE, d, x.variant, 0x17⟩)

/-! The layout map -/

/-- The first violation in an entry of a map (R292): its reason. -/
def State.entryErr (s : State) (st : FMap Word) (t : Tvd) (m : List Byte) (i : Nat) : Option Nat :=
  let e := mapEntry m i
  let d := s.desc e.desc
  let src := match t.variant? d.variant with
    | some v => s.lineBad (64 * e.desc) 64 || !descValid t v (fget regDflt st oTierMap) d || d.order || d.rows < e.row0 + e.nrows ||
        d.cols < e.col0 + e.ncols || (e.slate && !d.slate)
    | none => true
  let b := blkSize e.gblk
  if mapSets m ≤ e.dset then some 5
  else if e.nrows = 0 ∨ e.ncols = 0 then some 6
  else if e.src = s.me && src then some 6
  else if !convOk e.gfmt e.gblk then some 7
  else if e.pitch < e.ncols ∨ e.pitch % 64 ≠ 0 ∨ (b ≠ 0 ∧ e.pitch % b ≠ 0) then some 8
  else if e.dofs % 256 ≠ 0 ∨ ((mapSet m e.dset).contains s.me ∧ stf st oCyanGeom 15 0 * 2 ^ 21 < e.dofs + e.size) then some 9
  else if e.rsv ≠ 0 then some 0xA
  else none

/-- The first violation of a staged map of a length (R288, R289, R292): entry and reason. -/
def State.mapErr (s : State) (st : FMap Word) (t : Tvd) (m : List Byte) (len : Nat) : Option (Nat × Nat) :=
  let hd := fun r => some (0xFFFF, r)
  let g := stf st oCommitGroup 39 32
  let mates := s.me :: (s.stagedMates g).map (·.src)
  let sets := (List.range (mapSets m)).map (mapSet m)
  if stf st oCyanGeom 15 0 = 0 then hd 0xB
  else if leAt m 0 4 ≠ 0x31504D4C ∨ leAt m 4 2 ≠ 1 ∨ leAt m 18 2 ≠ g ∨ mapId m = 0 then hd 1
  else if leAt m 12 4 ≠ (crc32c (m.drop 16)).toNat then hd 2
  else if mapSets m = 0 ∨ 256 < mapSets m ∨ mapCount m = 0 ∨ 32768 < mapCount m ∨ len ≠ 64 + 32 * (mapSets m + mapCount m) then hd 3
  else if sets.any (fun x => x.isEmpty || x.any (fun i => !mates.contains i)) then hd 4
  else if ((m.drop 20).take 44).any (· != 0#8) then hd 0xA
  else (List.range (mapCount m)).findSome? (fun i => (s.entryErr st t m i).map (fun r => (i, r)))

/-- The map that a staged set would make live, copied and validated, or the violation in it (R292, R492). -/
def State.checkMap (s : State) (st : FMap Word) (t : Tvd) : State × (Nat × Nat ⊕ List Byte) :=
  let len := stf st oLayoutLen 20 0
  let a := stf st oLayoutAddr 47 3 * 8
  if len = 0 then (s, .inr (if s.mapResident = 0 then [] else s.liveMap))
  else if s.lineBad a len then (s.lineFault none 0 0xFFFF 0 0x16 (s.badAddr a len), .inl (0xFFFF, 0xC))
  else
    let m := s.ext a len
    let s := s.store 0x2A000000 m
    match s.mapErr st t m len with
    | some e => (s, .inl e)
    | none => (s, .inr m)

/-! Registers -/

/-- The Cyan and stash regions of a staged set (R281, R309, R324): the code. -/
def regionErr (st : FMap Word) : Nat :=
  let tm := fget regDflt st oTierMap
  let size := stf st oCyanGeom 15 0 * 2 ^ 21
  let a := stf st oCyanBase 47 21 * 2 ^ 21
  let view := stf st oCyanGeom 47 21 * 2 ^ 21
  let ssize := stf st oStashRegion 15 0 * 2 ^ 21
  let sb := stf st oStashRegion 47 21 * 2 ^ 21
  if size ≠ 0 ∧ (!rangeOk tm a size || !rangeOk tm (a + size) size || overlap view size 0 (max 0xC0000000 (fld tm 48 32 * 2 ^ 21)) ||
      overlap view size 0x10000000000 (fld tm 22 0 * 2 ^ 21)) then 0x16
  else if ssize ≠ 0 ∧ (!rangeOk tm sb ssize || overlap sb ssize a (2 * size) || overlap sb ssize view size) then 0x16
  else 0

/-- A matrix buffer of a staged set reaches engine private memory, the mapping table or an address that is not populated, or meets a banked array
as the staged bit-stream lays it out (R171, R228): the code. -/
def State.bufErr (s : State) (st : FMap Word) (t : Tvd) : Nat :=
  let bufs := ((List.range 8).map (fun k => (stf st (oMxBufBase k) 47 8 * 256, stf st (oMxBufSize k) 15 0 * 2 ^ 21))).filter (fun x => x.2 != 0)
  let banked := if bufs.isEmpty then [] else s.liveDescs.flatMap (fun i =>
    let d := s.desc i
    match t.variant? d.variant with
    | some v => bankArrays t v d 0 ++ bankArrays t v d 1
    | none => [])
  if bufs.any (fun (a, n) => !rangeOk (fget regDflt st oTierMap) a n || banked.any (fun (x, m) => overlap a n x m)) then 0x16 else 0

/-- The tier settings of a staged set (R337, R350, R351, R370): the code. -/
def State.tierErr (s : State) (st : FMap Word) : Nat :=
  let fixed := stf st oTierMap 48 32
  let pages := stf st oTierMap 22 0
  let stack := s.f oTierStat 63 47
  let moved := fixed ≠ s.f oTierMap 48 32 ∨ pages ≠ s.f oTierMap 22 0
  let busy := s.tier.pages.any (fun e => [PageState.promoting, .resident, .evicting, .fetching].contains e.2.st)
  if fixed < 0x600 ∨ stack < fixed then 0x16
  else if pages ≠ 0 ∧ s.f oFlashGeom 63 60 = 0 then 0x16
  else if pages ≠ 0 ∧ stack - fixed < stf st oTierCfg 47 40 + 16 then 0x16
  else if moved ∧ busy then 0x16
  else if stf st oFlashCfg 43 32 = 0 then 0x16
  else if s.f oFlashStat 63 48 * 2 ^ 30 < pages * 2 ^ 21 + (stf st oSnapCfg 47 32 + stf st oSnapCfg 31 16) * 2 ^ 30 then 0x16
  else 0

/-- The partner of a staged set (R370): the code. -/
def State.partnerErr (s : State) (st : FMap Word) : Nat :=
  if stf st oSnapCfg 55 55 = 0 then 0
  else
    let p := stf st oSnapCfg 63 56
    if p = s.me then 0x16
    else match s.advertOf p with
      | none => 0x16
      | some m =>
        if m.staged.feed = s.f oSnapCfg 3 0 ∧ stf st oSnapCfg 54 54 = 0 then 0x14
        else if m.staged.mirrorGib * 2 ^ 30 < stf st oSnapCfg 47 32 * 2 ^ 30 +
            (if stf st oSnapCfg 53 53 = 1 then stf st oTierMap 22 0 * 2 ^ 21 else 0) then 0x16
        else 0

/-- The beat length of a staged set (R26): the code. -/
def State.lenErr (s : State) (st : FMap Word) : Nat :=
  let k := stf st oBeatCfg 6 0
  if k < 4 ∨ 64 < k then 0x11
  else if s.b oBeatCfg 16 then 0
  else match s.advertOf (s.f oBeatSync 47 40) with
    | some m => if m.lenK = k then 0 else 0x16
    | none => 0x16

/-- The group of a staged set (R71): the code. -/
def State.groupErr (s : State) (st : FMap Word) : Nat :=
  let g := stf st oCommitGroup 39 32
  let mates := s.stagedMates g
  if mates.length ≠ stf st oCommitGroup 47 40 ∨ mates.any (fun m => m.staged.coord != stf st oCommitGroup 55 48) then 0x16 else 0

/-- The numeric settings of a staged set (R106, R277): the code. -/
def numErr (st : FMap Word) : Nat :=
  let w : KX := (fget regDflt st oGradCfg).setWidth 34
  let mx : KX := (fget regDflt st oGradClip).setWidth 34
  let eps := stf st oGradClip 41 34
  if (stf st oNumCfg 7 7 = 1 ∧ stf st oNumCfg 6 6 = 1) ∨ stf st oNumCfg 1 0 = 3 then 0x15
  else if !(kxLt kxZero w && kxLe w kxOne) ∨ kxIsNaN mx ∨ kxLt mx kxZero ∨ eps < 1 ∨ 126 < eps then 0x15
  else 0

/-- A RESHARD or an EMIT_CYAN to a buffer has not yet completed (R22, R286): the one that runs, to the buffer of its round, or a posted one, to
the buffer that it will find. -/
def State.roundTo (s : State) (b : Bool) : Bool :=
  let of := fun opc => match s.cyan.bound with
    | some (_, x, _) => if opc = 0x41 then x else s.cyanBuild
    | none => s.cyanBuild
  let runs := match s.run .sq with
    | some r => (r.opc = 0x40 || r.opc = 0x41) && ((s.cyan.bound.map (fun x => x.2.1)).getD s.cyanBuild) == b
    | none => false
  runs || (List.range (sub32 (s.posted .sq) (s.doneSeq .sq))).any (fun i =>
    let opc := leAt (s.record .sq ((s.doneSeq .sq + 1 + i) % 2 ^ 32)) 0 1
    (opc = 0x40 || opc = 0x41) && of opc == b)

/-- A round that writes the buffer which a staged set names for reading is not complete (R22, R286). -/
def State.cyanErr (s : State) (st : FMap Word) : Nat :=
  let named := stf st oProfileWork 16 16 = 1
  if s.roundTo named then 0x16
  else if named != s.serving && (s.cyanState named = 0 || s.cyanState named = 4) then 0x16 else 0

/-- The first register rule that a staged set breaks (R50 stage 1): the code. -/
def State.regErr (s : State) (st : FMap Word) (t : Tvd) : Nat :=
  let shares := stf st oProfileShares
  let grey := shares 47 40
  let sum := shares 7 0 + shares 15 8 + shares 23 16 + shares 31 24 + shares 39 32 + grey
  let work := stf st oProfileWork
  let checks : List Nat :=
    [if s.f oFabStat 23 12 = 0 then 0x15 else 0,
     s.lenErr st,
     if sum ≠ 256 ∨ grey < 4 ∨ 64 < grey then 0x11 else 0,
     if work 17 17 = work 16 16 then 0x16 else 0,
     if (stf st oProfileDeadlines 59 40 ≠ 0 ∨ stf st oProfileSnap 43 20 ≠ 0) ∧ work 47 32 < work 63 48 then 0x16 else 0,
     s.groupErr st, numErr st, s.cyanErr st, regionErr st, s.bufErr st t,
     if stf st oMcCfg 3 0 = 0 then 0x16 else 0,
     s.tierErr st, s.partnerErr st,
     if ¬ (stf st oPwrCfg 41 32 < stf st oPwrCfg 57 48) ∨ stf st oPwrCfg 31 24 = 0 then 0x12 else 0]
  (checks.find? (· != 0)).getD 0

/-- CHECK of a staged set (R50): its three stages. -/
def State.checkAll (s : State) (st : FMap Word) : CheckOut :=
  let none_ : AdmitSt := ⟨0, 0, 0, 0, 0, 1, 0⟩
  let stop := fun (s : State) (code : Nat) (tvd : Word) (lay : Nat × Nat) =>
    (⟨s, code, List.replicate 4 (setFld 0#64 23 16 code), tvd, lay, none, none_⟩ : CheckOut)
  let (s, f) := s.checkFile st
  match f with
  | .inl e => stop s e.result e.toWord (0, 0)
  | .inr t =>
    let (s, e) := s.checkSet st t (stepSet st)
    match e with
    | some e => stop s e.result e.toWord (0, 0)
    | none =>
      let (s, m) := s.checkMap st t
      match m with
      | .inl e => stop s 0x16 0#64 e
      | .inr m =>
        if s.regErr st t ≠ 0 then stop s (s.regErr st t) 0#64 (0, 0)
        else
          let a := s.admission st t m
          ⟨s, a.code, a.reports.map Report.word, 0#64, (0, 0), if stf st oTvdLen 16 0 = 0 then none else some t, a.adm⟩

/-- A peer port in use lacks an idle spare lane (R364). -/
def State.lacksSpare (s : State) : Bool :=
  (List.zip (List.range 8) s.peer.ports).any (fun (p, x) => s.b (oPlStat p) 0 && x.spare.isNone)

/-- The end of a CHECK (R50, R51, R64, R162, R287, R459): reports and records written from the set as it stood at its start. A refusal of the
first stage leaves STALE 0. -/
def State.checkEnd (s : State) : State :=
  let o := s.checkAll s.stage.snap
  let s := (List.range 4).foldl (fun s k => s.setReg (oAdmitReport k) (nth 0#64 o.reports k)) o.s
  let s := (s.setReg oTvdCheck o.tvd).upd oLayoutCheck (fun w => setFld (setFld w 47 32 o.layout.1) 7 0 o.layout.2)
  let ok := o.code = 0 && !s.stage.dirty
  let code := if s.stage.dirty then 0x2F else o.code
  let s := s.upd oStageResult (fun w => setFld (setFld (setFld w 63 16 s.beat) 15 8 code) 3 0 (if ok then 2 else 0))
  let s := if o.adm.lenK != 0 && s.lacksSpare then s.setStale [1, 2] else s
  let n : Nat := stf s.stage.snap oTvdLen 16 0
  let s := if ok && n != 0 then s.store 0x34800000 (s.ext (stf s.stage.snap oTvdAddr 47 3 * 8) n) else s
  if ok then { s with stage := { s.stage with fileCopy := o.file, chk := o.adm } } else s

end Sys2Proof.Machine
end

