-- ==== Sys2Proof/Machine/Gather.lean ====
section
/-! DEFINITION. GATHER and GATHER_SPARSE (R20, R306, R307). In a GATHER's Run, `phase` is the output address of the descriptor
at hand; its jobs carry their output address as `kind`; `banks` is what it bound, and `step` the step bound; `info` is [0, 1] while the index list
of a GATHER_SPARSE is still to be read, and holds the ending code else. -/
namespace Sys2Proof.Machine

/-- GFLAGS and GFMT of a record (R306). -/
def Run.gfmt (r : Run) : Nat := r.fld 16 1
def Run.gslate (r : Run) : Bool := r.fld 17 1 % 2 = 1
def Run.gblk (r : Run) : Nat := r.fld 17 1 / 2 % 8
def Run.gdither (r : Run) : Bool := r.fld 17 1 / 16 % 2 = 1

/-- Descriptors of a GATHER. -/
def Run.gatherFirst (r : Run) : Nat := r.fld 12 2
def Run.gatherLast (r : Run) : Nat := if r.opc = 0x11 then r.fld 12 2 else r.fld 14 2

/-- Bytes of an output of n positions: elements, and scales from the next 256-byte boundary on (R307). -/
def outBytes (f : Fmt) (blk n : Nat) : Nat := if blk = 0 then packedBytes f n else roundUp (packedBytes f n) 256 + cdiv n blk

/-- Positions that a GATHER writes for a descriptor. -/
def Run.gatherPositions (r : Run) (d : Desc) : Nat := if r.opc = 0x11 then runRows r.rows * d.pitch else d.positions

/-- Bytes of the whole output (R307). -/
def State.gatherBytes (s : State) (r : Run) (f : Fmt) : Nat :=
  ((List.range (r.gatherLast + 1 - r.gatherFirst)).foldl (fun (x : Nat × Nat) i =>
    let n := outBytes f (blkSize r.gblk) (r.gatherPositions (s.desc (r.gatherFirst + i)))
    (roundUp x.1 256 + n, 0)) (0, 0)).1

/-- A target of R307: as a landing zone, and outside the Cyan buffers and the view. -/
def State.gatherDstOk (s : State) (a n : Nat) : Bool :=
  s.landingOk a n && !overlap a n (s.cyanBase false) (2 * s.cyanSize) && !overlap a n s.cyanView s.cyanSize

/-- What a GATHER finds about a descriptor (R173, R307, R492). -/
def State.gatherCheck (s : State) (r : Run) (d : Nat) : Nat :=
  let c := s.descCheck d
  let x := s.desc d
  if c != 0 then c
  else if (if r.gslate then x.slate else x.has 0) && (r.opc = 0x10 || (!x.order && pitchOk x.pitch)) then 0 else 0x16

/-- The bank bound: Ivory of every descriptor as it stands, and the committed step (R20, R307). -/
def State.gatherBind (s : State) (r : Run) : Run :=
  let ds := (List.range (r.gatherLast + 1 - r.gatherFirst)).map (r.gatherFirst + ·)
  { r with bound := true, step := s.stepNow
           banks := if r.gslate then [] else ds.map (fun d => (d, (s.desc d).role)) }

/-- A GATHER whose rows are known starts, or is refused for its target (R307). -/
def State.gatherStart (s : State) (r : Run) : State :=
  match fmtOf r.gfmt with
  | none => s.complete .gq r 0x16 []
  | some f =>
    if !s.gatherDstOk (r.fld 24 6) (s.gatherBytes r f) then s.complete .gq r 0x16 []
    else s.setRun .gq (some { r with desc := r.gatherFirst, phase := r.fld 24 6, info := [] })

/-- The index list of a GATHER_SPARSE read (R180, R244, R492), once its pages are there. -/
def State.gatherList (s : State) (r : Run) : State :=
  let count := r.fld 32 4
  let list := r.fld 40 6
  match s.pageGo 0 [(list, 8 * count)] [] with
  | (s, .wait, _) => s.setRun .gq (some r)
  | (s, .absent f, _) => s.complete .gq r f []
  | (s, .go, _) =>
    if s.lineBad list (8 * count) then (s.badControl .gq r r.gatherFirst list (8 * count)).complete .gq r 0x24 []
    else
      let s := s.passRing (svc 104) (cdiv count 262144)
      let es := s.idxEntries list count (s.desc r.gatherFirst).rows
      s.gatherStart { r with rows := touchedRuns (es.filterMap id), t := { r.t with drops := (es.filter Option.isNone).length } }

/-- A GATHER at evaluation (R307). One whose step is the committed one binds now, whatever its index list still waits for. -/
def State.gatherEval (s : State) (r : Run) : State :=
  let want := r.fld 8 4
  let ds := (List.range (r.gatherLast + 1 - r.gatherFirst)).map (r.gatherFirst + ·)
  if want != 0 && want < s.stepNow then s.complete .gq r 0x2F []
  else if !convOk r.gfmt r.gblk then s.complete .gq r 0x16 []
  else match ds.find? (fun d => s.gatherCheck r d != 0) with
    | some d =>
      let c := s.gatherCheck r d
      (if c = 0x24 then s.badControl .gq r d (64 * d) 64 else s).complete .gq r c []
    | none =>
      let r := if want != 0 && s.stepNow = want then s.gatherBind r else r
      if r.opc = 0x10 then s.gatherStart r
      else if 16777216 < r.fld 32 4 then s.complete .gq r 0x16 []
      else s.gatherList { r with info := [0, 1] }

/-- The runs of positions that tile k of a GATHER reads. -/
def Run.gatherSegs (r : Run) (d : Desc) (k : Nat) : List (Nat × Nat) :=
  if r.opc = 0x11 then sparseSegs d r.rows k else denseSegs d k

/-- Tiles of a GATHER in a descriptor. -/
def Run.gatherTiles (r : Run) (d : Desc) : Nat := if r.opc = 0x11 then sparseTiles d.pitch (runRows r.rows) else d.tiles

/-- The bank that a GATHER reads of a descriptor. -/
def Run.bankOf (r : Run) (d : Nat) : Nat := ((r.banks.find? (·.1 == d)).map (·.2)).getD 0

/-- What a tile of a GATHER writes: elements and scales (R307). -/
def Run.gatherWrites (r : Run) (f : Fmt) (d : Desc) (out k : Nat) : List (Nat × Nat) :=
  let n := min 8192 (r.gatherPositions d - 8192 * k)
  let blk := blkSize r.gblk
  (out + packedBytes f (8192 * k), packedBytes f n) ::
    (if blk = 0 then [] else [(out + roundUp (packedBytes f (r.gatherPositions d)) 256 + 8192 * k / blk, cdiv n blk)])

/-- What the streams of a GATHER read of a descriptor. -/
def State.gatherFeed (s : State) (r : Run) (d : Desc) : Feed :=
  { tiles := r.gatherTiles d, reads := fun _ k => (r.gatherSegs d k).flatMap (s.convRanges r.gslate d (r.bankOf d.idx)) }

/-- The stream group of a GATHER (R230, R245). -/
def State.gatherGroup (s : State) (r : Run) (d : Desc) : List GRing := convGroup 100 (s.convTile r.gslate d) r.gfmt r.gblk

/-- Tiles of a GATHER issued; the first one binds (R20, R307). -/
def State.gatherIssue : Nat → State → Run → State × Run
  | 0, s, r => (s, r)
  | n + 1, s, r =>
    if !s.mayIssue .gq r then (s, r)
    else
      let c := if r.latched.isSome then 0 else s.gatherCheck r r.desc
      if c != 0 then (if c = 0x24 then s.badControl .gq r r.desc (64 * r.desc) 64 else s, r.endWith c)
      else
        let ws := s.runWords r
        let d := s.latchedDesc r.desc ws
        match fmtOf r.gfmt with
        | none => (s, r)
        | some f =>
          let size := outBytes f (blkSize r.gblk) (r.gatherPositions d)
          let tiles := r.gatherTiles d
          if tiles ≤ r.tile then
            State.gatherIssue n s { r with desc := r.desc + 1, tile := 0, latched := none, phase := roundUp (r.phase + size) 256
                                           issued := r.desc = r.gatherLast }
          else
            let rb := if r.bound then r else s.gatherBind r
            let k := (r.gatherSegs d r.tile).foldl (fun k g => k + g.2) 0
            match s.issue .gq r r.phase r.desc r.tile k ws (s.gatherFeed rb d) (r.gatherWrites f d r.phase r.tile) (s.gatherGroup r d) with
            | (s, .sent) => State.gatherIssue n s { rb with tile := r.tile + 1, latched := some ws }
            | (s, _) => (s, r)

/-- The completion of a GATHER (R300, R307). -/
def State.gatherEnd (s : State) (r : Run) : State :=
  let code := if r.aborting then 0x2F else if nth 0 r.info 0 = 0 then r.t.convResult else nth 0 r.info 0
  s.complete .gq r code [r.t.tiles, r.t.replayed, r.t.drops, r.step]

/-- A GATHER carried on: it waits for its step (R307). -/
def State.gatherGo (s : State) (r : Run) : State :=
  if nth 0 r.info 1 = 1 then s.gatherList r
  else if r.fld 8 4 != 0 && !r.bound then s
  else
    let (s, r) := s.gatherIssue issueMax r
    s.keepOrEnd .gq r State.gatherEnd

/-- A tile of a GATHER completed (R293 to R295, R307): converted, written, counted in the gather record. -/
def State.gatherComplete (s : State) (r : Run) (j : Job) : State × Run :=
  let d := s.latchedDesc j.desc j.words
  match fmtOf r.gfmt with
  | none => (s, r)
  | some f =>
    let segs := r.gatherSegs d j.tile
    let bank := r.bankOf j.desc
    let rd := segs.flatMap (s.convRanges r.gslate d bank)
    let bad := rd.find? (fun (a, n) => s.lineBad a n)
    let s := match bad with
      | some (a, n) => if j.fault = 0 then s.lineFault (some .gq) r.seq d.idx j.tile 0x24 (s.badAddr a n) else s
      | none => s
    let lost := j.fault != 0 || bad.isSome
    let xs := segs.flatMap (fun seg =>
      let vals := if lost then List.replicate seg.2 lostElem else s.convSrc r.gslate d bank seg.1 seg.2
      List.zipWith (fun i x => if (d.elemAt (seg.1 + i)).isSome then some (x, seg.1 + i) else none) (List.range seg.2) vals)
    let o := convRun (s.convCfg f r.gblk r.gdither r.step d.idx) (blkSize r.gblk) xs
    let wr := r.gatherWrites f d j.kind j.tile
    let merge := wr.any (fun (a, n) => s.mergeBad a n)
    let held := (s.pagesOf wr).all (fun i => (s.page i).served)
    let s := if !held then s else match wr with
      | [(a, _)] => s.putBy .gq d.idx a (packCodes f o.codes)
      | [(a, _), (b, _)] => (s.putBy .gq d.idx a (packCodes f o.codes)).putBy .gq d.idx b (o.scales.map (BitVec.ofNat 8))
      | _ => s
    let rec_ := 0x2A600000 + 32 * d.idx
    let s := (s.addCountsAt rec_ { o.counts with viol := 0 }).storeNum (rec_ + 20) 4 r.step
    let s := ((s.numStat o.counts false).convNans .gq r.seq d.idx (fun p => j.laneOf (placeIn p segs)) o.nans).recordFault .gq r.seq d.idx j.tile rec_ 32
    let t := if j.fault != 0 then r.t.absent j.fault else r.t
    (s, { r with t := { t with tiles := t.tiles + 1, nan := t.nan || o.counts.nan != 0
                               check := t.check || (bad.isSome && j.fault = 0) || merge || s.lineBad rec_ 32 } })

end Sys2Proof.Machine
end

