-- ==== Sys2Proof/Machine/Grad.lean ====
section
/-! DEFINITION. Gradients (R254 to R280): FOLD, FOLD_SPARSE, CLOSE_STEP and the norm reduction.
In a fold's Run: `phase` is the landing address of the descriptor at hand, `step` the step it folds into, `bound` says that the
newest entry of the log is its own and may grow, `taps` holds sums of squares by descriptor; for FOLD_SPARSE `banks` holds the kept
index entries, `info` their first landing rows, after a leading 0, `copy` the rows of failed tiles, and `t.extra` counts the tiles that have
ended. Its jobs and ring entries carry
the place of the tile among those of the descriptor as `tile`, its jobs their landing address as `kind`. In a CLOSE_STEP's Run: `rows` holds the descriptors still to be close-scanned and `info` those that it closed. -/
namespace Sys2Proof.Machine

/-- First and last descriptor of a fold (R260, R266). -/
def Run.foldFirst (r : Run) : Nat := r.fld 16 2
def Run.foldLast (r : Run) : Nat := if r.opc = 0x21 then r.fld 16 2 else r.fld 18 2

/-- The descriptors of a fold. -/
def Run.foldDescs (r : Run) : List Nat := (List.range (r.foldLast + 1 - r.foldFirst)).map (r.foldFirst + ·)

/-- The tag step of a fold (R260). -/
def Run.tagStep (r : Run) : Nat := r.fld 8 4

/-- What a fold finds about a descriptor at evaluation and at the latch (R173, R254, R266, R492). -/
def State.foldCheck (s : State) (sparse : Bool) (d : Nat) : Nat :=
  let x := s.desc d
  if s.lineBad (64 * d) 64 then 0x24
  else if descValid s.fab.resident (s.variantOf x) (s.reg oTierMap) x && x.fmtIdx 3 = 2 && x.accBase % 32768 = 0 &&
      (!sparse || (!x.order && pitchOk x.pitch)) then 0
  else 0x16

/-- Bytes that the landing zone of a FOLD occupies (R261). -/
def State.landingBytes (s : State) : List Nat → Nat
  | [] => 0
  | [d] => 2 * (s.desc d).positions
  | d :: t => roundUp (2 * (s.desc d).positions) 256 + s.landingBytes t

/-- The log of a tag step (R259). -/
def State.foldLog (s : State) (tag : Nat) : List Contrib := if tag = s.grad.openStep then s.grad.logOpen else s.grad.logPrev

/-- The weight of an accepted contribution (R258, R262). -/
def State.foldWeight (s : State) (r : Run) : KX :=
  if r.tagStep = r.step then kxOne else (s.reg oGradCfg).setWidth 34

/-- A descriptor's contribution logged under its tag step (R259): a command has one entry for each run of descriptors that it accepts. -/
def logContrib (r : Run) (d : Nat) (l : List Contrib) : List Contrib :=
  match r.bound, l.getLast? with
  | true, some e => l.dropLast ++ [{ e with last := d }]
  | _, _ => l ++ [⟨r.tagStep, r.fld 12 2, r.fld 14 2, d, d⟩]

/-- Bits of FSTAT in a fold record (R280). -/
def State.fstat (s : State) (d : Nat) : Nat := s.num (foldRec d + 56) 1

/-- FSTAT with bits set and then cleared (R280). -/
def State.setFstat (s : State) (d on off : Nat) : State :=
  let v := BitVec.ofNat 8 (s.fstat d)
  s.storeNum (foldRec d + 56) 1 ((v ||| BitVec.ofNat 8 on) &&& ~~~(BitVec.ofNat 8 off)).toNat

/-- A contribution has reached a descriptor in the open step (R270). -/
def State.foldReach (s : State) (d : Nat) : State :=
  if s.grad.descs.contains d then s else { s with grad := { s.grad with descs := s.grad.descs ++ [d] } }

/-- FOLD_FAULT set: the contribution fails for a descriptor, which the next CLOSE_STEP closes (R264). -/
def State.foldFail (s : State) (d : Nat) : State := (s.setFstat d 2 1).foldReach d

/-- A descriptor's contribution accepted (R259, R273, R280): logged, weighed and counted; SSQ_VALID clears. -/
def State.foldAccept (s : State) (r : Run) (d : Nat) : State :=
  let a := foldRec d
  let s := if s.num (a + 36) 4 = r.step then s
    else ((s.storeNum (a + 36) 4 r.step).storeNum (a + 40) 4 0).storeNum (a + 60) 2 0
  let (x, o) := kxAdd (k32a (s.num (a + 40) 4)) (s.foldWeight r)
  let e := encodeElem .k32a x none (nanMode (numCfgOf (s.reg oNumCfg)) 0) none
  let s := ((s.storeNum (a + 40) 4 e.code).countMem (a + 60) 2 1).setFstat d 0 1
  let s := s.numStat { encCounts e with viol := 0 } o
  let g := s.grad
  let g := if r.tagStep = g.openStep then { g with logOpen := logContrib r d g.logOpen }
    else { g with logPrev := logContrib r d g.logPrev }
  ({ s with grad := g } : State).foldReach d

/-- The kept index entries of a FOLD_SPARSE with their first landing rows. -/
def Run.landRuns (r : Run) : List ((Nat × Nat) × Nat) := r.banks.zip (r.info.drop 1)

/-- The landing rows of a row, in ascending order (R267). -/
def Run.landRows (r : Run) (row : Nat) : List Nat :=
  r.landRuns.filterMap (fun (e, k) => if e.1 ≤ row && row ≤ e.2 then some (k + (row - e.1)) else none)

/-- Landing rows that the kept entries name, but for rows of failed tiles. -/
def Run.landCount (r : Run) : Nat := r.banks.foldl (fun n e => n + runRows (minusRuns [e] r.copy)) 0

/-- The accumulator tiles that hold a position of some rows (R267). -/
def Desc.tilesOfRuns (d : Desc) (rs : List (Nat × Nat)) : List Nat :=
  (rs.flatMap (fun (a, b) =>
    let lo := a * d.pitch / 8192
    (List.range (((b + 1) * d.pitch - 1) / 8192 + 1 - lo)).map (lo + ·))).eraseDups

/-- The pieces (row, first column, positions) of tile t of a descriptor with ORDER 0. -/
def Desc.rowPieces (d : Desc) (t : Nat) : List (Nat × Nat × Nat) :=
  let p := d.pitch
  if p = 0 then []
  else if p ≤ 8192 then
    (List.range (8192 / p)).map (fun i => (t * (8192 / p) + i, 0, p))
  else [(t / (p / 8192), t % (p / 8192) * 8192, 8192)]

/-- The runs (first position, positions) of a tile that are not void. -/
def Desc.liveRuns (d : Desc) (t : Nat) : List (Nat × Nat) :=
  let n := min 8192 (d.positions - 8192 * t)
  if !d.order ∧ d.pitch = d.cols then [(8192 * t, n)]
  else (runsOf ((List.range n).filter (fun i => (d.elemAt (8192 * t + i)).isSome))).map (fun (a, b) => (8192 * t + a, b + 1 - a))

/-- The landing ranges that a tile of a fold reads (R261, R267); void positions are not read. -/
def Run.landRanges (r : Run) (d : Desc) (lz t : Nat) : List (Nat × Nat) :=
  if r.opc = 0x20 then (d.liveRuns t).map (fun (p, n) => (lz + 2 * p, 2 * n))
  else (d.rowPieces t).flatMap (fun (row, c, n) =>
    if d.cols ≤ c then [] else (r.landRows row).map (fun k => (lz + 2 * (d.pitch * k + c), 2 * min n (d.cols - c))))

/-- Address of the fold map entry of tile t (R255). -/
def Desc.mapAddr (d : Desc) (t : Nat) : Nat := 0x24800000 + 4 * ((d.accBase + 32768 * t) / 32768)

/-- What a tile of a fold reads (R256, R264). -/
def State.foldReads (s : State) (r : Run) (d : Desc) (lz t : Nat) : List (Nat × Nat) :=
  let acc := d.accBase + 32768 * t
  r.landRanges d lz t ++ [(d.mapAddr t, 4)] ++ (if s.foldMap acc = r.step then [(acc, 32768)] else [])

/-- KG16 values at an address. -/
def State.kg16s (s : State) (a n : Nat) : List Dec :=
  (unpackWords 2 n (s.bytes a (2 * n))).map (fun c => decodeElem .kg16 c none)

/-- The landing values for each of the 8,192 positions of a tile, in the order in which they are added; none for a position
that the contribution does not cover or that is void (R261, R267). -/
def State.landVals (s : State) (r : Run) (d : Desc) (lz t : Nat) : List (List Dec) :=
  let raw : List (List Dec) :=
    if r.opc = 0x20 then
      let n := min 8192 (d.positions - 8192 * t)
      (s.kg16s (lz + 16384 * t) n).map (fun x => [x]) ++ List.replicate (8192 - n) []
    else
      (d.rowPieces t).flatMap (fun (row, c, n) =>
        (r.landRows row).foldl (fun acc k => List.zipWith (fun l x => l ++ [x]) acc (s.kg16s (lz + 2 * (d.pitch * k + c)) n))
          (List.replicate n []))
  List.zipWith (fun i l => if (d.elemAt (8192 * t + i)).isSome then l else []) (List.range 8192) raw

/-- One position of a fold (R262, R267): the element written, and KX saturation; nm is the overflow mode (R106). -/
def foldPos (nm : Bool) (w : KX) (first : Bool) (acc : Dec) (gs : List Dec) : Enc × Bool :=
  let r := gs.foldl (fun (x : Option KX × Bool) g =>
    match x.1 with
    | none => let (y, o) := kxMul w g.v; (some y, x.2 || o)
    | some a => let (y, o) := kxFma w g.v a; (some y, x.2 || o)) (if first then none else some acc.v, false)
  (encodeElem .k32a (r.1.getD kxZero) none nm none, r.2)

/-- Counts of a fold tile added to the fold record of its descriptor (R280). -/
def State.addFold (s : State) (d : Nat) (i a e : Counts) : State :=
  let p := foldRec d
  let s := ((s.countMem p 8 i.total).countMem (p + 8) 4 i.vanish).countMem (p + 12) 4 i.nan
  (((s.countMem (p + 16) 8 e.total).countMem (p + 24) 4 e.sat).countMem (p + 28) 4 (a.nan + e.nan)).countMem (p + 32) 4
    (a.vanish + e.vanish)

/-- Sum of squares of a tile's accumulator values in the tree of R127, encoded to K32A (R272); nm is the overflow mode (R106). -/
def tileSsq (nm : Bool) (codes : List Nat) : Enc × Bool :=
  let (x, o) := treeFoldO 13 (codes.map (fun c => let v := k32a c; kxMul v v))
  (encodeElem .k32a x none nm none, o)

/-- What a fold tile met. -/
structure FoldRes where
  bad  : Bool          -- the contribution fails for the descriptor (R264)
  stat : Bool          -- the fold record could not be added to (R492)
  ssq  : Option KX     -- the tile's sum of squares, decoded again (R273)
  deriving DecidableEq, Repr

/-- One tile of a fold (R256, R262, R263, R273); `lane` gives the lane of a position of it. -/
def State.foldTile (s : State) (r : Run) (d : Desc) (lz t : Nat) (lane : Nat → Nat) : State × FoldRes :=
  let acc := d.accBase + 32768 * t
  match (s.foldReads r d lz t).find? (fun (a, n) => s.lineBad a n) with
  | some (a, n) => (s.lineFault (some .aq) r.seq d.idx t 0x24 (s.badAddr a n), ⟨true, false, none⟩)
  | none =>
    let first := s.foldMap acc != r.step
    let gs := s.landVals r d lz t
    let olds := if first then List.replicate 8192 0 else s.readCodes .k32a acc 0 8192
    let w := s.foldWeight r
    let nm := nanMode (numCfgOf (s.reg oNumCfg)) 0
    let ps := List.zipWith (fun (g : List Dec) (o : Nat) =>
      let a := if first then (⟨kxZero, false, false, false⟩ : Dec) else decodeElem .k32a o none
      if g.isEmpty then (none, a, o) else (some (foldPos nm w first a g), a, o)) gs olds
    let codes := ps.map (fun (x, _, o) => match x with | some (e, _) => e.code | none => o)
    let ic := gs.foldl (fun c g => g.foldl (fun c x => addCounts c (decCounts x)) c) zeroCounts
    let ac := ps.foldl (fun c (x, a, _) => if x.isSome && !first then addCounts c (decCounts a) else c) zeroCounts
    let ec := ps.foldl (fun c (x, _, _) => match x with | some (e, _) => addCounts c (encCounts e) | none => c) zeroCounts
    let ovf := ps.any (fun (x, _, _) => match x with | some (_, o) => o | none => false)
    let s := s.put acc (packCodes .k32a codes)
    let s := if first then s.setFoldMap acc r.step else s
    let s := (s.addFold d.idx ic ac ec).numStat (addCounts ic (addCounts ac ec)) ovf
    let s := match (List.zip (List.range 8192) (gs.zip ps)).find? (fun (_, g, x, a, _) =>
        x.isSome && (g.any (·.nan) || a.nan || ((x.map (fun y => y.1.nan)).getD false))) with
      | some (k, g, _, a, _) =>
        let site := if g.any (·.nan) then 0x30 else if a.nan then 0x31 else 0x32
        s.captureNan ⟨.aq, 0x80, 0, site, d.idx, lane k, r.seq, t, kxNaN, kxZero, kxZero⟩
      | none => s
    let (s, q) := if r.opc = 0x20 && r.fld 20 1 % 2 = 1 then
        let (e, o) := tileSsq nm codes
        (s.numStat (encCounts e) o, some (k32a e.code))
      else (s, none)
    (s.recordFault .aq r.seq d.idx t (foldRec d.idx) 128, ⟨false, s.lineBad (foldRec d.idx) 128, q⟩)

/-- The tiles that a fold works on for a descriptor. -/
def Run.foldTiles (r : Run) (d : Desc) : List Nat := if r.opc = 0x21 then d.tilesOfRuns r.rows else List.range d.tiles

/-- The rows that a tile of a descriptor holds positions of. -/
def Desc.tileRows (d : Desc) (t : Nat) : List (Nat × Nat) := touchedRuns ((d.rowPieces t).map (fun x => (x.1, x.1)))

/-- A FOLD_SPARSE with the rows of every tile that has not ended put to those that failed: they have not been folded (R265). -/
def Run.foldLeft (r : Run) (d : Desc) : Run :=
  { r with copy := ((r.foldTiles d).drop r.t.extra).foldl (fun rs t => unionRuns rs (d.tileRows t)) r.copy }

/-- The result of a fold (R265): drops are in `drops`, a late contribution in `late`. -/
def State.foldEnd (s : State) (r : Run) : State :=
  let r := if r.opc = 0x21 then r.foldLeft (s.desc r.foldFirst) else r
  let t := r.t
  let code := if r.aborting then 0x2F
    else if t.poison then 0x21 else if t.timeout then 0x23 else if t.check || nth 0 r.info 0 = 0x24 then 0x24
    else if nth 0 r.info 0 != 0 then nth 0 r.info 0
    else if t.drops != 0 || t.extra2 != 0 then 0x01
    else if t.late then 0x02 else if t.recovered then 0x03 else 0x00
  let s := if t.late && t.descs != 0 then s.count oGradLate 63 32 1 else s
  let tail := sat16 t.drops * 65536 + t.extra2 * 256 + min t.replayed 255
  if r.opc = 0x20 then s.complete .aq r code [t.tiles, t.descs, tail, r.gated]
  else if t.descs = 0 then s.complete .aq r code [0, 0, tail, r.gated]
  else s.complete .aq r code [runRows (minusRuns r.rows r.copy), r.landCount, tail, r.gated]

/-- A contribution dropped whole (R258, R259): reason 1 STALE, 2 LATE, 3 DUPLICATE. -/
def State.foldDrop (s : State) (r : Run) (reason : Nat) : State :=
  let s := if reason = 1 then s.count oGradDrops 63 48 1 else if reason = 2 then s.count oGradDrops 47 32 1
    else s.count oGradDrops 31 16 1
  let n := if r.opc = 0x20 then r.foldDescs.length else 0
  s.complete .aq r 0x01 [0, 0, sat16 n * 65536 + reason * 256, 0]

/-- A fold at evaluation (R258, R259, R261, R266): future, layout, log full, then the drops. A sparse fold reads its index
list here (R180). -/
def State.foldEval (s : State) (r : Run) : State :=
  let o := s.grad.openStep
  let tag := r.tagStep
  let sparse := r.opc = 0x21
  let lz := r.fld 24 6
  let count := r.fld 32 4
  let list := r.fld 40 6
  if o < tag then s.complete .aq r 0x2F []
  else match r.foldDescs.find? (fun d => s.foldCheck sparse d != 0) with
    | some d =>
      if s.foldCheck sparse d = 0x24 then (s.badControl .aq r d (64 * d) 64).complete .aq r 0x24 []
      else s.complete .aq r 0x16 []
    | none =>
      if sparse && 16777216 < count || !sparse && !s.landingOk lz (s.landingBytes r.foldDescs) then s.complete .aq r 0x16 []
      else if tag + 1 < o then s.foldDrop r 1
      else if tag < o && !s.b oGradCfg 36 then s.foldDrop r 2
      else
        let log := s.foldLog tag
        let logBad := s.lineBad 0x25800000 (16 * log.length) || s.lineBad 0x25900000 (16 * log.length)
        if logBad then
          ((s.badControl .aq r 0xFFFF 0x25800000 0x200000) |> (r.foldDescs.foldl State.foldFail)).complete .aq r 0x24 []
        else if 65536 ≤ log.length then s.complete .aq r 0x2F []
        else if log.any (fun e => e.mbatch = r.fld 12 2 && e.contrib = r.fld 14 2 && e.first ≤ r.foldLast && r.foldFirst ≤ e.last)
        then s.foldDrop r 3
        else
          let r := { r with step := o, desc := r.foldFirst, phase := lz, t := { r.t with late := tag < o } }
          if !sparse then s.setRun .aq (some r)
          else match s.pageGo 1 [(list, 8 * count)] [] with
            | (s, .wait, _) => s.setRun .aq none
            | (s, .absent f, _) => s.complete .aq r f []
            | (s, .go, _) =>
              if s.lineBad list (8 * count) then (s.badControl .aq r r.desc list (8 * count)).complete .aq r 0x24 []
              else
                let s := s.passRing (svc 104) (cdiv count 262144)
                let d := s.desc r.desc
                let es := s.idxEntries list count d.rows
                let lens := (wordsFrom (s.ext list (8 * count)) 0 count).map (fun w => fld w 47 32 + 1)
                let starts := lens.foldl (fun (acc : List Nat × Nat) n => (acc.1 ++ [acc.2], acc.2 + n)) ([], 0)
                if !s.landingOk lz (2 * d.pitch * starts.2) then s.complete .aq r 0x16 []
                else
                  let kept := (es.zip starts.1).filterMap (fun (e, k) => e.map (fun x => (x, k)))
                  s.setRun .aq (some { r with
                    rows := touchedRuns (kept.map (·.1)), banks := kept.map (·.1), info := 0 :: kept.map (·.2)
                    t := { r.t with drops := (es.filter Option.isNone).length } })

/-- The run of a fold past its present descriptor. -/
def Run.foldNext (r : Run) (d : Desc) : Run :=
  { r with desc := r.desc + 1, tile := 0, latched := none, phase := r.phase + roundUp (2 * d.positions) 256
           issued := r.issued || r.desc = r.foldLast }

/-- How a fold took up a descriptor. -/
inductive FoldLatch where
  | ready | wait | skip | ended
  deriving DecidableEq, Repr

/-- A descriptor taken up by a fold (R174, R263, R264): checked again, scanned for NaN when NAN_DROP asks, accepted. DESIGN CHOICE (assumption
log 40): the lane of a NaN that the scan finds is its place in the tile modulo L, as if the scanned tile began at lane 0. -/
def State.foldLatch (s : State) (r : Run) : State × Run × FoldLatch :=
  let sparse := r.opc = 0x21
  let code := s.foldCheck sparse r.desc
  let d := s.desc r.desc
  if code != 0 then
    (if code = 0x24 then s.badControl .aq r r.desc (64 * r.desc) 64 else s,
     { r with issued := true, info := code :: r.info.drop 1 }, .ended)
  else if !r.bound && 65536 ≤ (s.foldLog r.tagStep).length then (s, { r with issued := true, info := 0x2F :: r.info.drop 1 }, .ended)
  else
    let ready := fun (s : State) =>
      let s := (s.foldAccept r r.desc).recordFault .aq r.seq r.desc 0 (foldRec r.desc) 128
      let t := { r.t with descs := r.t.descs + 1, check := r.t.check || s.lineBad (foldRec r.desc) 128 }
      (s, { r with bound := true, latched := some (s.descWords r.desc), t := t }, FoldLatch.ready)
    let failed := fun (s : State) (t : Tally) =>
      let s := (s.foldAccept r r.desc).foldFail r.desc
      (s, { r with bound := true, rows := [], banks := [], t := { t with descs := t.descs + 1 } }.foldNext d, FoldLatch.skip)
    if r.fld 20 1 / 2 % 2 = 0 then ready s
    else
      let tiles := if sparse then d.tilesOfRuns r.rows else List.range d.tiles
      let zones := tiles.flatMap (r.landRanges d r.phase)
      match s.pageGo 1 zones [] with
      | (s, .wait, _) => (s, r, .wait)
      | (s, .absent f, _) => failed s (r.t.absent f)
      | (s, .go, _) =>
        match zones.find? (fun (a, n) => s.lineBad a n) with
        | some (a, n) =>
          failed (s.lineFault (some .aq) r.seq r.desc 0 0x24 (s.badAddr a n)) { r.t with check := true }
        | none =>
          let hits := tiles.flatMap (fun t =>
            (List.zip (List.range 8192) (s.landVals r d r.phase t)).flatMap (fun (k, g) =>
              (g.filter (·.nan)).map (fun _ => (t, k))))
          match hits with
          | [] => ready s
          | (t, k) :: _ =>
            let s := (s.countMem (foldRec r.desc + 12) 4 hits.length).numStat { zeroCounts with nan := hits.length } false
            let s := s.captureNan ⟨.aq, 0x80, 0, 0x30, r.desc, k % s.lanes, r.seq, t, kxNaN, kxZero, kxZero⟩
            let s := s.count oGradDrops 15 0 1
            let t' := { r.t with drops := r.t.drops + (if sparse then 0 else 1)
                                 extra2 := if r.t.extra2 = 0 then 4 else r.t.extra2 }
            (s, { r with bound := false, t := t' }.foldNext d, .skip)

/-- The next tile of a fold waits on the gate of R18. -/
def State.foldGated (s : State) (r : Run) : Bool :=
  !r.issued && (match r.latched with
    | some ws =>
      match (r.foldTiles (s.latchedDesc r.desc ws))[r.tile]? with
      | some t => !s.foldFree r.desc t
      | none => false
    | none => false)

/-- What the streams of a fold read of a descriptor (R230, R256, R261). -/
def State.foldFeed (s : State) (r : Run) (d : Desc) (lz : Nat) : Feed :=
  let ts := r.foldTiles d
  { tiles := ts.length
    reads := fun k i =>
      let t := nth 0 ts i
      let acc := d.accBase + 32768 * t
      if k = svc 96 then r.landRanges d lz t
      else (d.mapAddr t, 4) :: (if s.foldMap acc = r.step then [(acc, 32768)] else []) }

/-- The stream group of a fold (R230, R232): landing-zone read, ACC read, ACC write. -/
def foldGroup : List GRing := [⟨svc 96, 4, false⟩, ⟨svc 97, 2, false⟩, ⟨svc 98, 2, true⟩]

/-- Tiles of a fold issued until something makes the next one wait (R18, R241, R262). -/
def State.foldIssue : Nat → State → Run → State × Run
  | 0, s, r => (s, r)
  | n + 1, s, r =>
    if !s.mayIssue .aq r then (s, r)
    else
      let (s, r, l) := match r.latched with
        | some _ => (s, r, FoldLatch.ready)
        | none => s.foldLatch r
      match l with
      | .wait => (s, r)
      | .ended => (s, r)
      | .skip => State.foldIssue n s r
      | .ready =>
        let ws := if r.tile = 0 then s.descWords r.desc else r.latched.getD []
        let d := s.latchedDesc r.desc ws
        let ts := r.foldTiles d
        let code := if r.tile = 0 then s.foldCheck (r.opc = 0x21) r.desc else 0
        if code != 0 then
          (if code = 0x24 then s.badControl .aq r r.desc (64 * r.desc) 64 else s, { r with issued := true, info := code :: r.info.drop 1 })
        else match ts[r.tile]? with
        | none => State.foldIssue n s (r.foldNext d)
        | some t =>
          let s := s.startRings .aq r.seq foldGroup
          if !s.foldFree r.desc t then (s, r)
          else
            let acc := d.accBase + 32768 * t
            match s.issue .aq r r.phase r.desc r.tile 8192 ws (s.foldFeed r d r.phase) [(acc, 32768)] foldGroup with
            | (s, .sent) =>
              State.foldIssue n s (if r.tile + 1 < ts.length then { r with tile := r.tile + 1, latched := some ws } else r.foldNext d)
            | (s, _) => (s, r)

/-- A fold carried on. -/
def State.foldGo (s : State) (r : Run) : State :=
  let (s, r) := s.foldIssue issueMax r
  s.keepOrEnd .aq r State.foldEnd

/-- A tile of a fold completed (R256, R264, R273). A first fold of a tile that the sweep of the step before has read counts
toward DISCARD's report (R81). -/
def State.foldComplete (s : State) (r : Run) (j : Job) : State × Run :=
  let d := s.latchedDesc j.desc j.words
  let t := nth 0 (r.foldTiles d) j.tile
  let r := if r.opc = 0x20 then r else { r with t := { r.t with extra := r.t.extra + 1 } }
  let fail := fun (r : Run) => if r.opc = 0x20 then r else { r with copy := unionRuns r.copy (d.tileRows t) }
  let (s, r) : State × Run :=
    if j.fault != 0 then (s.foldFail j.desc, fail { r with t := r.t.absent j.fault })
    else
      let beaten := s.foldMap (d.accBase + 32768 * t) != r.step && s.stepNow + 1 < s.grad.openStep &&
        s.grad.closed.contains j.desc
      let (s, f) := s.foldTile r d j.kind t j.laneOf
      let s := if beaten && !f.bad then { s with step := { s.step with badTiles := s.step.badTiles + 1 } } else s
      if f.bad then (s.foldFail j.desc, fail { r with t := { r.t with check := true } })
      else
        let (ts, o) := match f.ssq with | some x => addTap r.taps j.desc 0x38 x | none => (r.taps, false)
        (s.kxFlag o, { r with taps := ts, t := { r.t with tiles := r.t.tiles + 1, check := r.t.check || f.stat } })
  if r.opc = 0x20 && j.tile + 1 = d.tiles then
    let s := if r.fld 20 1 % 2 = 1 && s.fstat j.desc / 2 % 2 = 0 then
        match r.taps.find? (·.1 == j.desc) with
        | some (_, x) => (s.storeK (foldRec j.desc + 52) x).setFstat j.desc 1 0
        | none => s
      else s
    (s, { r with taps := r.taps.filter (·.1 != j.desc) })
  else (s, r)

/-! CLOSE_STEP -/

/-- The clip factor of a total (R275), with KX saturation. -/
def State.clipFactor (s : State) (total : KX) : KX × Bool :=
  let mx : KX := (s.reg oGradClip).setWidth 34
  if kxIsNaN total then (kxNaN, false)
  else if kxIsZero mx then (kxOne, false)
  else
    let (n, o1) := kxSqrt total
    let (d, o2) := kxAdd n (kxPow2Neg (s.f oGradClip 41 34))
    let (q, o3) := kxDiv mx d
    (kxMin kxOne q, o1 || o2 || o3)

/-- The total and the clip factor of a step arrived (R270, R274, R278). -/
def State.normDone (s : State) (step : Nat) (total kappa : KX) : State :=
  let n := s.grad.norm
  let s := { s with grad := { s.grad with norm := { n with
    own := none, partials := n.partials.filter (fun p => p.step != step)
    kappas := ((step, kappa) :: n.kappas.filter (·.1 != step)).take 4 } } }
  if s.f oNormStat 63 32 = step then
    let (s, c) := s.encK total
    ((s.setF oNormStat 31 28 3).setF oNormVal 63 32 c).setF oNormKappa 33 0 kappa.toNat
  else s

/-- The reduction carried on at this member once its own partial and those of its children are there (R274): the sum goes up,
or at the root the total and the clip factor go down. -/
def State.normTry (s : State) : State :=
  match s.grad.norm.own with
  | none => s
  | some (step, x) =>
    let ps := s.normKids.map (fun k => s.grad.norm.partials.find? (fun p => p.src = k && p.step = step))
    if ps.any Option.isNone then s
    else
      let (sum, o) := (ps.filterMap id).foldl (fun (a, o) p => let (y, o') := kxAdd a p.value; (y, o || o')) (x, false)
      let s := s.numStat zeroCounts o
      match s.normParent with
      | some p =>
        let n := s.grad.norm
        { (s.send (.part p step sum)) with grad := { s.grad with norm := { n with
            own := none, partials := n.partials.filter (fun p => p.step != step) } } }
      | none =>
        let (k, o) := s.clipFactor sum
        let s := (s.numStat zeroCounts o).normDone step sum k
        if s.normKids.isEmpty then s else s.send (.total step sum k)

/-- A descriptor is counted in the norm (R269). -/
def Run.normed (r : Run) (d : Nat) : Bool := r.fld 12 2 ≤ d && d ≤ r.fld 14 2

/-- The closing of items 1 and 2 of R270: the descriptors of the step closed, the next step opened. -/
def State.closeDescs (s : State) (r : Run) : State × Run :=
  let step := r.step
  let ds := s.grad.descs.insertionSort (fun a b => a ≤ b)
  let expect := r.fld 16 4
  let (s, t, nz) := ds.foldl (fun (x : State × Tally × List Nat) d =>
    let (s, t, nz) := x
    let a := foldRec d
    let cur := s.num (a + 36) 4 = step
    let open_ := if cur then s.num (a + 40) 4 else 0
    let n := if cur then s.num (a + 60) 2 else 0
    let bad := s.fstat d / 2 % 2 = 1
    let dv := if bad then 0xFFFFFFFF else open_
    let s := ((s.storeNum (a + 48) 4 dv).storeNum (a + 62) 2 n).storeNum (a + 44) 4 step
    let s := ((s.storeNum (a + 40) 4 0).storeNum (a + 60) 2 0).recordFault .aq r.seq d 0 a 128
    let t := { t with descs := t.descs + 1, poison := t.poison || bad, check := t.check || s.lineBad a 128
                      drops := t.drops + (if expect != 0 && n < expect then 1 else 0) }
    (s, t, if kxIsZero (k32a dv) then nz else nz ++ [d])) (s, r.t, [])
  let s := s.count oGradLate 31 0 t.drops
  let g := s.grad
  let s := { s with grad := { g with openStep := (step + 1) % 2 ^ 32, logPrev := g.logOpen, logOpen := [], descs := [], closed := nz } }
  let n := s.grad.norm
  let n := { n with kappas := n.kappas.filter (·.1 != step), timedOut := n.timedOut.filter (· != step) }
  let s : State := { s with grad := { s.grad with norm := n } }
  let s := (s.setF oNormStat 63 32 step).setF oNormStat 31 28 1
  let scan := (ds.filter (r.normed)).filter (fun d =>
    let v := k32a (s.num (foldRec d + 48) 4)
    !kxIsZero v && !kxIsNaN v && s.fstat d % 2 = 0)
  (s, { r with t := t, rows := scan.map (fun d => (d, d)), info := ds, phase := 1 })

/-- CLOSE_STEP at evaluation (R269). -/
def State.closeEval (s : State) (r : Run) : State :=
  if r.fld 8 4 != s.grad.openStep then s.complete .aq r 0x2F [] else s.setRun .aq (some { r with step := r.fld 8 4 })

/-- What the close scan of a descriptor reads (R257, R273): the fold map entries, and the tiles that the step has folded. -/
def State.scanReads (s : State) (step : Nat) (d : Desc) : List (Nat × Nat) :=
  let tiles := (List.range d.tiles).filter (fun t => s.foldMap (d.accBase + 32768 * t) = step)
  (List.range d.tiles).map (fun t => (d.mapAddr t, 4)) ++ tiles.map (fun t => (d.accBase + 32768 * t, 32768))

/-- The ring of the close scan (R230). A descriptor's scan stands in it as one entry; the other slots that its tiles fill pass through when it
completes (R232; assumption log 20). -/
def closeGroup : List GRing := [⟨svc 97, 2, false⟩]

/-- Close scans issued, one job for each descriptor (R273). -/
def State.closeIssue : Nat → State → Run → State × Run
  | 0, s, r => (s, r)
  | n + 1, s, r =>
    if !s.mayIssue .aq r then (s, r)
    else match r.rows with
      | [] => (s, { r with issued := true })
      | (d, _) :: t =>
        let x := s.desc d
        match s.issue .aq r 1 d 0 0 (s.descWords d) { tiles := 1, reads := fun _ _ => s.scanReads r.step x } [] closeGroup with
        | (s, .sent) => State.closeIssue n s { r with rows := t, t := { r.t with tiles := r.t.tiles + 1 } }
        | (s, _) => (s, r)

/-- The local partial formed and sent, and the command completed (R270 to R272, R278). -/
def State.closeEnd (s : State) (r : Run) : State :=
  let step := r.step
  let (s, x, o, ex) := (r.info.filter r.normed).foldl (fun (acc : State × KX × Bool × Nat) d =>
    let (s, x, o, ex) := acc
    let v := k32a (s.num (foldRec d + 48) 4)
    if s.fstat d / 2 % 2 = 1 then (s.setFstat d 4 0, x, o, ex + 1)
    else
      let s := s.setFstat d 0 4
      if kxIsZero v || kxIsNaN v then (s, x, o, ex)
      else
        let (dd, o1) := kxMul v v
        let (q, o2) := kxDiv (k32a (s.num (foldRec d + 52) 4)) dd
        let (y, o3) := kxAdd x q
        (s, y, o || o1 || o2 || o3, ex)) (s, kxZero, false, 0)
  let s := r.info.foldl (fun s d => s.setFstat d 0 2) s
  let enc := encodeElem .k32a x none (nanMode (numCfgOf (s.reg oNumCfg)) 0) none
  let s := (s.numStat { encCounts enc with viol := 0 } o).setF oNormStat 15 0 (min ex 65535)
  let s := s.setF oNormVal 31 0 enc.code
  let s := { s with grad := { s.grad with norm := { s.grad.norm with own := some (step, x), sentAt := s.beat, local_ := r.fld 20 1 % 2 = 1 } } }
  let s := if r.fld 20 1 % 2 = 1 then
      let (k, o) := s.clipFactor x
      (s.numStat zeroCounts o).normDone step x k
    else (s.setF oNormStat 31 28 2).normTry
  let code := if r.t.poison then 0x21 else if r.t.check then 0x24 else if r.t.drops != 0 then 0x01 else 0x00
  s.complete .aq r code [r.t.descs, r.t.drops, r.t.tiles, r.gated]

/-- CLOSE_STEP carried on (R269, R270): it waits until the step before is committed. -/
def State.closeGo (s : State) (r : Run) : State :=
  if r.phase = 0 && s.stepNow + 1 < r.step then s
  else
    let (s, r) := if r.phase = 0 then s.closeDescs r else (s, r)
    let (s, r) := s.closeIssue issueMax r
    s.keepOrEnd .aq r State.closeEnd

/-- A close scan completed (R257, R272, R273): the stored sum of squares. A line that cannot be read, or a page that is not there, gives the
descriptor a NaN divisor, as a failed fold would (assumption log 13). -/
def State.closeComplete (s : State) (r : Run) (j : Job) : State × Run :=
  let d := s.latchedDesc j.desc j.words
  let tiles := (List.range d.tiles).filter (fun t => s.foldMap (d.accBase + 32768 * t) = r.step)
  let s := s.passRing (svc 97) (cdiv tiles.length 2 - 1)
  let lost := fun (s : State) =>
    ((s.storeNum (foldRec j.desc + 48) 4 0xFFFFFFFF).setFstat j.desc 2 1, { r with t := { r.t with poison := true } })
  match j.fault, (s.scanReads r.step d).find? (fun (a, n) => s.lineBad a n) with
  | 0, some (a, n) => lost (s.lineFault (some .aq) r.seq j.desc 0 0x21 (s.badAddr a n))
  | _ + 1, _ => lost s
  | 0, none =>
    let nm := nanMode (numCfgOf (s.reg oNumCfg)) 0
    let (s, ts) := tiles.foldl (fun (x : State × List (Nat × KX)) t =>
      let n := min 8192 (d.positions - 8192 * t)
      let cs := (s.readCodes .k32a (d.accBase + 32768 * t) 0 n).zip (List.range n)
      let cs := cs.map (fun (c, i) => if (d.elemAt (8192 * t + i)).isSome then c else 0)
      let (e, o) := tileSsq nm (cs ++ List.replicate (8192 - n) 0)
      let (l, o2) := addTap x.2 0 0x38 (k32a e.code)
      (x.1.numStat (encCounts e) (o || o2), l)) (s, [])
    let x := ((ts.find? (·.1 == 0)).map (·.2)).getD kxZero
    (s.storeK (foldRec j.desc + 52) x, r)

end Sys2Proof.Machine
end

