-- ==== Sys2Proof/Machine/Commit.lean ====
section
/-! DEFINITION. Commit (R56 to R59, R72 to R82, R182, R193): preparation and replay, votes and decisions, the flip, doubt,
DISCARD; and BARRIER and FENCE (R242, R243, R419). In a COMMIT's Run, `phase` is 0 while it prepares, 1 once it has
prepared, 2 after a YES vote, 3 after a HOLD vote; `banks` is empty and `rows` unused. In a FENCE's Run, `rows` holds the
queues and SEQs it waits for. In a BARRIER's Run, `phase` is 1 once its arrive flag is set and `info` the beat of that. -/
namespace Sys2Proof.Machine

/-! The forward lists -/

/-- Runs in all forward lists (R182). -/
def fwdRuns (l : List RowSet) : Nat := l.foldl (fun n e => n + e.runs.length) 0

/-- The forward list of a descriptor set, and FWD_ALL where the event sets it; a list beyond the limits of R182 is emptied
with FWD_ALL set. -/
def State.setForward (s : State) (q : Queue) (d : Nat) (runs : List (Nat × Nat)) (all : Option Bool) : State :=
  let others := s.fwd.filter (·.desc != d)
  if 262144 < runs.length || 8388608 < fwdRuns others + runs.length then
    ({ s with fwd := others } : State).setWord7 q d (fun w => setBit w 62 true)
  else
    let s := { s with fwd := if runs.isEmpty then others else others ++ [⟨d, runs⟩] }
    match all with
    | some b => s.setWord7 q d (fun w => setBit w 62 b)
    | none => s

/-- The rows that the uncommitted step wrote in a descriptor (R182). -/
def State.stepRows (s : State) (d : Nat) : List (Nat × Nat) := ((s.step.touched.find? (·.desc == d)).map (·.runs)).getD []

/-- The forward list of a descriptor whose step is voided or excluded (R182): former list together with the rows written. -/
def State.voidForward (s : State) (q : Queue) (d : Nat) : State :=
  if !(s.desc d).stamped then s
  else
    let old := ((s.fwd.find? (·.desc == d)).map (·.runs)).getD []
    s.setForward q d (unionRuns old (s.stepRows d)) none

/-! Amax entries -/

/-- A site's record changed by the command that runs on a queue; one in an uncorrectable line is reported and stays as it is (R359, R492). -/
def State.siteUpd (s : State) (q : Queue) (d i : Nat) (f : State → State) : State :=
  if !s.lineBad (siteRec d i) 128 then f s
  else if fld ((s.variantOf (s.desc d)).site i) 63 60 = 0xF then s
  else s.recordFault q (((s.run q).map (·.seq)).getD 0) d 0 (siteRec d i) 128

/-- The pending amax entry of a site cleared (R59, R189). -/
def State.clearSite (s : State) (d i : Nat) : State :=
  let a := siteRec d i
  if s.num (a + 30) 1 % 2 = 1 then (s.storeNum (a + 24) 4 0).storeNum (a + 30) 1 0 else s

/-- The pending amax entries of a descriptor cleared (R59, R189). -/
def State.clearPending (s : State) (q : Queue) (d : Nat) : State :=
  (List.range 24).foldl (fun s i => s.siteUpd q d i (fun s => s.clearSite d i)) s

/-- The pending amax entries of a descriptor appended to their histories and cleared (R59, R189). -/
def State.appendPending (s : State) (q : Queue) (d : Nat) : State :=
  (List.range 24).foldl (fun s i => s.siteUpd q d i (fun s =>
    let a := siteRec d i
    let p := s.num (a + 24) 4
    let s := if s.num (a + 30) 1 % 2 = 1 && !kxIsNaN (k32a p) then
        let n := s.num (a + 29) 1
        let head := if n = 0 then 0 else (s.num (a + 28) 1 + 1) % 16
        ((s.storeNum (a + 32 + 4 * head) 4 p).storeNum (a + 28) 1 head).storeNum (a + 29) 1 (min 16 (n + 1))
      else s
    s.clearSite d i)) s

/-- Word 7 of a descriptor, or a record of a site in use, lies in an uncorrectable line: the flip cannot rewrite it (R359, R492). -/
def State.tableBad (s : State) (d : Nat) : Bool :=
  s.lineBad (64 * d + 56) 8 || (s.statBad (s.variantOf (s.desc d)) d).isSome

/-- The held list and HELD_STAT cleared (R193). -/
def State.clearHeld (s : State) : State :=
  (s.putBy .uq 0xFFFF 0x10400000 (List.replicate (2 * min 4096 s.step.held.length) 0#8)).setReg oHeldStat 0#64

/-! Replay of tiles whose data is lost (R74, R369) -/

/-- The data of some ranges taken from a state in which a tile has been computed again; nothing else of that state is kept,
because the tile's first completion has reported it (R74, R126, R369). Its free bits are new ones. -/
def State.takeData (s r : State) (ws : List (Nat × Nat)) : State :=
  { (ws.foldl (fun s (a, n) => s.put a (r.bytes a n)) s) with freeCtr := r.freeCtr }

/-- Lines of some ranges no longer marked: the replay writes them again. -/
def State.unmark (s : State) (ws : List (Nat × Nat)) : State :=
  { s with badLines := s.badLines.filter (fun l => !ws.any (fun (a, n) => n != 0 && a / 256 ≤ l && l ≤ (a + n - 1) / 256)) }

/-- The command that swept a descriptor, with the rows that it copied forward and caught up there (R182, R186). -/
def State.logRun (s : State) (e : SweepLog) : Run :=
  if e.run.opc != 0x31 then e.run
  else
    let d := s.latchedDesc e.desc e.words
    let caught := s.scanRows d e.run.step e.run.rows
    { e.run with behind := caught, copy := s.forwardRows d e.run.rows caught }

/-- The ranges that a piece of a step's sweep writes: kind 0 a tile or block, 1 one of the copy-forward, 2 one of the catch-up. -/
def State.logWritesOf (s : State) (e : SweepLog) (kind tile : Nat) : List (Nat × Nat) :=
  let d := s.latchedDesc e.desc e.words
  let t := s.fab.resident
  let v := s.variantOf d
  if e.run.opc = 0x32 then
    match t.prog? (e.run.fld 12 1) with
    | some m => s.mxWrites e.run m d tile
    | none => []
  else
    let segs := (s.logRun e).sweepSegs d kind tile
    if kind = 0 then s.sweepWrites t v d segs else segs.flatMap (copyRanges t v d d.umber)

/-- A piece of a step's sweep computed again from Ivory and ACC (R74, R369); the flag says that its sources could be read and that what it
wrote can be. -/
def State.replayPiece (s : State) (e : SweepLog) (kind tile : Nat) : State × Bool :=
  let ws := s.logWritesOf e kind tile
  let s := s.unmark ws
  let j : Job := { q := .uq, seq := e.run.seq, desc := e.desc, tile := tile, kind := kind, words := e.words, fault := 0, pages := []
                   writes := ws, lane := 0, lanes := s.lanes, again := false }
  let s0 : State := { s with step := { s.step with held := [] } }
  let r := if e.run.opc = 0x32 then (s0.matrixComplete e.run j).1 else (s0.sweepComplete (s.logRun e) j).1
  let s := (s.takeData r ws).life 7 1
  (s, !r.step.held.any (·.faulted) && !ws.any (fun (a, n) => s.lineBad a n))

/-- The pieces of a step's sweep, as (kind, tile). -/
def State.piecesOf (s : State) (e : SweepLog) : List (Nat × Nat) :=
  let d := s.latchedDesc e.desc e.words
  if e.run.opc = 0x32 then
    match s.fab.resident.prog? (e.run.fld 12 1) with
    | some m => (List.range (m.blocks d)).map (fun b => (0, b))
    | none => []
  else if e.run.opc = 0x30 then (List.range d.tiles).map (fun t => (0, t))
  else
    let r := s.logRun e
    [(1, r.copy), (2, r.behind), (0, r.rows)].flatMap (fun (k, rows) =>
      (List.range (sparseTiles d.pitch (runRows rows))).map (fun t => (k, t)))

/-- Commit preparation (R74, R358 step 4): every piece of the step with an uncorrectable Umber line is replayed; one that
fails again holds its descriptor (R191). The flag says that something was replayed. -/
def State.prepare (s : State) (r : Run) : State × Bool :=
  if s.badLines.isEmpty && s.reg oChFailed = 0#64 then (s, false)
  else
    let todo := (s.step.sweeps.filter (fun e => !s.step.exclude.contains e.desc)).flatMap (fun e =>
      ((s.piecesOf e).filter (fun (k, t) => (s.logWritesOf e k t).any (fun (a, n) => s.lineBad a n))).map (fun (k, t) => (e, k, t)))
    (todo.foldl (fun s (e, k, t) =>
      let s := s.logFault ⟨0x0D, false, 0x03, 0, some .uq, r.seq, e.desc, t,
        ((s.logWritesOf e k t).head?.map (·.1)).getD 0⟩
      let (s, ok) := s.replayPiece e k t
      if ok then s else (s.holdDesc r.step e.desc false).1) s, !todo.isEmpty)

/-- A write of the step has not reached the stack: the channel has asked for its line again (R74, R402). -/
def State.writesOut (s : State) : Bool :=
  let ls := (s.io.tries.filter (·.write)).filterMap (fun t => s.psLine t.line)
  !ls.isEmpty && s.step.sweeps.any (fun e => (s.piecesOf e).any (fun (k, t) =>
    (s.logWritesOf e k t).any (fun (a, n) => n != 0 && ls.any (fun l => a / 256 ≤ l && l ≤ (a + n - 1) / 256))))

/-! The flip -/

/-- A descriptor of the commit set at the flip (R58, R169, R182, R186): its role inverted, its step and scan recorded, its forward list that of
a dense or of a sparse sweep. -/
def State.flipDesc (s : State) (step d : Nat) : State :=
  let x := s.desc d
  let scanned := s.step.scanned.contains d
  let s := s.setWord7 .uq d (fun w =>
    let w := setFld (setBit w 63 (x.role = 0)) 31 0 step
    if scanned then setFld w 47 32 (step % 65536) else w)
  let s := if !x.stamped then s
    else if s.step.dense.contains d then s.setForward .uq d [] (some true)
    else if s.step.written.contains d then s.setForward .uq d (s.stepRows d) (some false)
    else s
  s.appendPending .uq d

/-- A descriptor of a part whose words or statistics page a SNAPSHOT cannot read is reported (R492). -/
def State.snapBad (s : State) (r : Run) (d : Nat) : State :=
  if s.lineBad (64 * d) 64 then s.badControl .sq r d (64 * d) 64 else s.badControl .sq r d (siteRec d 0) 4096

/-- A SNAPSHOT binds its bank (R371 to R373): the open half records the part, and each descriptor as it stands with its statistics page. One that
cannot be read is INCOMPLETE, and the command ends FAULT_CHECKWORD (R492). -/
def State.snapBind (s : State) (r : Run) : State × Run :=
  let ds := (List.range (r.fld 14 2 + 1 - r.fld 12 2)).map (r.fld 12 2 + ·)
  let bad := ds.filter (fun d => s.lineBad (64 * d) 64 || s.lineBad (siteRec d 0) 4096)
  let s := bad.foldl (fun s d => s.snapBad r d) s
  let new := ds.map (fun d => (⟨d, r.fld 12 2, r.fld 14 2, s.reg oTvdBuild, s.bytes (64 * d) 64, s.bytes (siteRec d 0) 4096,
    bad.contains d⟩ : SnapRecord))
  let add := fun (h : Option Snap) => match h with
    | some x => if x.sealed || x.id != r.fld 16 4 then h
      else some { x with records := x.records.filter (fun e => !ds.contains e.desc) ++ new }
    | none => none
  ({ s with res := { s.res with halves := s.res.halves.map add } },
   { r with bound := true, step := s.stepNow, banks := ds.map (fun d => (d, (s.desc d).role)),
            t := { r.t with check := r.t.check || !bad.isEmpty } })

/-- GATHERs and SNAPSHOTs that waited for the step bind (R307, R372). -/
def State.bindWaiting (s : State) : State :=
  let s := match s.run .gq with
    | some r => if (r.opc = 0x10 || r.opc = 0x11) && !r.bound && r.fld 8 4 = s.stepNow && r.fld 8 4 != 0 then
        s.setRun .gq (some (s.gatherBind r)) else s
    | none => s
  match s.run .sq with
  | some r =>
    if r.opc = 0x42 && !r.bound && r.fld 8 4 = s.stepNow then
      let (s, r) := s.snapBind r
      s.setRun .sq (some r)
    else s
  | none => s

/-- The flip (R58, R59, R76, R79): roles inverted over the commit set, pending maxima appended, exclusions voided, the
COMMIT completed. DEDUCED (assumption log 28): a table line that the flip could not rewrite makes the result FAULT_CHECKWORD (R359, R492). -/
def State.flip (s : State) : State :=
  match s.run .uq, s.commit.decided with
  | some r, some (_, f, _, _) =>
    let ex := s.step.set.filter s.step.exclude.contains
    let set := s.step.set.filter (fun d => !s.step.exclude.contains d)
    let bad := s.step.set.any s.tableBad
    let s := set.foldl (fun s d => s.flipDesc r.step d) s
    let s := ex.foldl (fun s d => (s.voidForward .uq d).clearPending .uq d) s
    let s := s.clearHeld
    let w := setFld (setFld (setFld (s.reg oCommitState) 63 32 r.step) 31 28 0) 15 0 (sat16 ex.length)
    let s := ((s.setReg oCommitState w).setF oCommitBeat 47 0 s.beat).setReg oCommitPend 0#64
    let late := s.commit.lateFlip
    let s := { s with step := StepSt.empty, commit := { s.commit with decided := none, lateFlip := false, lastVote := none },
                            res := { s.res with snapTiles := 0 } }
    let s := s.bindWaiting
    let (code, dw) : Nat × List Nat := if late then (0x03, [f % 2 ^ 32, s.beat - f])
      else (if r.t.recovered then 0x03 else 0x00, [s.members.length, ex.length])
    let code := if bad then 0x24 else code
    (s.complete .uq r code dw).settleHead .uq
  | _, _ => s

/-- A decided flip is due at the present beat (R58, R76). -/
def State.flipDue (s : State) : Bool :=
  s.alive && s.commit.decided.isSome && s.commit.flipAt ≤ s.beat &&
    (match s.run .uq with | some r => r.opc = 0x33 && 2 ≤ r.phase | none => false)

/-! Votes and decisions -/

/-- The running COMMIT (R72). -/
def State.commitRun (s : State) : Option Run :=
  match s.run .uq with
  | some r => if r.opc = 0x33 then some r else none
  | none => none

/-- COMMIT_STATE.STATE (R78). -/
def State.commitPhase (s : State) : Nat := s.f oCommitState 31 28

/-- A decision received (R75 to R77): journaled, with free values in the write log as the layout of the journal is not given (assumption log 32);
the running COMMIT of its step follows it, whether it has voted or not. A COMMIT that still prepares flips once it is prepared. For decisions other than COMMIT, f is the decision beat. Of an ABORT, a member that voted NO completes with
its own code (its Run's `info`). DESIGN CHOICE (assumption log 28): a member that voted HOLD then completes ABORTED, as those that voted YES. -/
def State.decide (s : State) (step : Nat) (d : Decision) (f inst info : Nat) : State :=
  let s := { s with commit := { s.commit with journal := ((⟨step, d, f⟩ : Journal) :: s.commit.journal).take 256 } }
  let s := s.logTable 0x34900000 ((List.range 16).map (fun i => Config.freeByte (0x34900000 + i) s.freeCtr))
  match s.commitRun with
  | some r =>
    if r.step != step || s.commit.decided.isSome || !(s.commitPhase = 1 || s.commitPhase = 2 || s.commitPhase = 4) then s
    else
      let fin := fun (s : State) (code : Nat) (dw : List Nat) =>
        (s.finish .uq r.seq r.opc r.tag code r.best r.ext f dw).settleHead .uq
      match d with
      | .commit =>
        let late := f ≤ s.beat || s.commitPhase = 4
        let s := (s.setF oCommitPend 47 0 f).setF oCommitState 31 28 3
        { s with commit := { s.commit with decided := some (d, f, inst, info), lateFlip := late, flipAt := if late then s.beat + 1 else f } }
      | .held => fin (s.setF oCommitState 31 28 5) 0x08 [inst, info]
      | .abortNo => fin (s.setF oCommitState 31 28 0) (if inst = s.me then info else r.info.headD 0x2F) [inst, info]
      | .abortPeerLost => fin ((s.setF oCommitState 31 28 0).peerLost (some .uq) r.seq inst) 0x22 [inst]
  | none => s

/-- The coordinator announces a decision down the tree and follows it itself (R75). -/
def State.announce (s : State) (step : Nat) (d : Decision) (f inst info : Nat) : State :=
  let s := { s with commit := { s.commit with votes := [] } }
  let s := if s.normKids.isEmpty then s else s.send (.decision step d f inst info)
  s.decide step d f inst info

/-- The coordinator decides once it holds a vote from every member (R75). -/
def State.tally (s : State) : State :=
  let vs := s.commit.votes
  if vs.length < s.groupSize || !s.members.all (fun m => vs.any (·.src == m)) then s
  else match vs.find? (·.vote == .no), vs.find? (·.vote == .hold) with
    | some v, _ => s.announce s.commit.voteStep .abortNo s.beat v.src v.reason
    | none, some v => s.announce s.commit.voteStep .held s.beat v.src (vs.foldl (fun n x => n + x.held) 0)
    | none, none =>
      s.announce s.commit.voteStep .commit ((vs.map (·.v)).foldl max 0 + tSync s.groupSize) 0 0

/-- A vote taken by the coordinator (R75). A vote of another step than the one being collected is not counted. -/
def State.takeVote (s : State) (step : Nat) (v : VoteRec) : State :=
  let c := s.commit
  if c.votes.isEmpty then
    ({ s with commit := { c with votes := [v], voteStep := step, firstVote := s.beat } } : State).tally
  else if c.voteStep != step || c.votes.any (·.src == v.src) then s
  else ({ s with commit := { c with votes := c.votes ++ [v] } } : State).tally

/-- The vote of this member (R74): HOLD for a held tile of the commit set, NO with its result as the reason when an earlier failure
forbids the commit (assumption log 28), else YES. The second part is the held count, the third the reason. -/
def State.ballot (s : State) : Vote × Nat × Nat :=
  let held := (s.step.held.filter (fun h => s.step.set.contains h.desc && !s.step.exclude.contains h.desc)).length
  if held != 0 then (.hold, held, 0)
  else if s.step.failed != 0 && Config.forbidsCommit s.step.failed then (.no, 0, s.step.failed)
  else (.yes, 0, 0)

/-- The vote cast in the current beat (R74). -/
def State.castVote (s : State) (r : Run) : State :=
  let (vote, held, reason) := s.ballot
  let s := s.setRun .uq (some { r with phase := if vote = .yes then 2 else 3, info := if vote = .no then [reason] else [] })
  let s := { s with commit := { s.commit with lastVote := some s.beat, decided := none } }
  let s := s.setF oCommitState 31 28 2
  if s.isCoord then s.takeVote r.step ⟨s.me, s.beat, vote, held, reason⟩
  else match s.normParent with
    | some p => s.send (.vote p s.me r.step s.beat vote held reason)
    | none => s

/-- COMMIT at evaluation (R72, R73, R77, R492). A COMMIT of a step in doubt is host software's resolution: it flips here at
the next boundary. DESIGN CHOICE (assumption log 28): the descriptors that EXCLUDE_HELD excludes are those held at this point; one that the
preparation comes to hold is not among them, and makes the vote HOLD. -/
def State.commitEval (s : State) (r : Run) : State :=
  let step := r.fld 8 4
  let mode := r.fld 12 1
  let n := r.fld 14 2
  let a := r.fld 16 8
  if step != (s.stepNow + 1) % 2 ^ 32 || 4096 < n then s.complete .uq r 0x2F []
  else if mode / 2 % 2 = 1 && s.lineBad a (2 * n) then (s.badControl .uq r 0xFFFF a (2 * n)).complete .uq r 0x24 []
  else
    let list := if mode / 2 % 2 = 1 then unpackWords 2 n (s.bytes a (2 * n)) else []
    let ex := ((if mode % 2 = 1 then s.step.held.map (·.desc) else []) ++ list).eraseDups
    let doubt := s.commitPhase = 4
    let s := { s with step := { s.step with exclude := ex } }
    let r := { r with step := step }
    if doubt then
      let f := s.beat + 1
      let s := { s with commit := { s.commit with decided := some (.commit, f, 0, 0), lateFlip := false, flipAt := f } }
      ((s.setF oCommitPend 47 0 f).setF oCommitState 31 28 3).setRun .uq (some { r with phase := 2 })
    else (s.setF oCommitState 31 28 1).setRun .uq (some r)

/-- COMMIT carried on (R74): prepared once every write of the step has reached the stack, and voted once the instance is locked. -/
def State.commitGo (s : State) (r : Run) : State :=
  if 2 ≤ r.phase || s.writesOut then s
  else
    let (s, r) := if r.phase = 0 then
        let (s, again) := s.prepare r
        (s, { r with phase := 1, t := { r.t with recovered := again } })
      else (s, r)
    if s.commit.decided.isSome then
      let c := s.commit
      ({ s with commit := { c with lateFlip := c.lateFlip || c.flipAt ≤ s.beat, flipAt := max c.flipAt (s.beat + 1) } } : State).setRun .uq
        (some { r with phase := 2 })
    else if s.b oBeatSync 31 then s.castVote r else s.setRun .uq (some r)

/-! DISCARD -/

/-- Commands of a step ahead of a DISCARD with ABORT_AHEAD ended in SEQ order, as far as nothing of theirs is in flight (R80). A COMMIT
ends whether it has voted or not; the DISCARD then clears what it left. -/
def State.clearAhead (s : State) (target step : Nat) : Nat → State
  | 0 => s
  | n + 1 =>
    let s := s.settleHead .uq
    match s.run .uq with
    | some r =>
      if r.seq = target || !r.ofStep step then s
      else if r.opc = 0x33 then
        let s := { s with commit := { s.commit with decided := none, lateFlip := false, lastVote := none } }
        (((s.setF oCommitState 31 28 0).setReg oCommitPend 0#64).complete .uq r 0x2F []).clearAhead target step n
      else if (s.jobsOf .uq r.seq).isEmpty then
        let r := { r with aborting := true }
        (if r.opc = 0x32 then s.matrixEnd r else s.sweepEnd r).clearAhead target step n
      else s.setRun .uq (some { r with aborting := true })
    | none =>
      if !s.waiting .uq then s
      else
        let r := s.newRun .uq
        if r.seq = target || !r.ofStep step then s
        else (s.complete .uq r 0x2F []).clearAhead target step n

/-- DISCARD (R80, R81, R182): the step voided. Its detail is the number of tiles that a later fold overwrote. -/
def State.discardEval (s : State) (r : Run) : State :=
  let step := r.fld 8 4
  if step != (s.stepNow + 1) % 2 ^ 32 then s.complete .uq r 0x2F []
  else
    let bad := s.step.set.any s.tableBad
    let s := s.step.set.foldl (fun s d => (s.voidForward .uq d).clearPending .uq d) s
    let s := s.clearHeld
    let s := (s.setF oCommitState 31 28 0).setReg oCommitPend 0#64
    let n := s.step.badTiles
    let guarded := s.b oCommitGroup 1
    let keep := { StepSt.empty with badTiles := n, swept := if guarded then [] else s.step.swept, replayed := guarded || s.step.replayed }
    let s := { s with step := keep, commit := { s.commit with decided := none, lateFlip := false, lastVote := none } }
    s.complete .uq r (if bad then 0x24 else 0x00) [n]

/-- A command of a step stands at the head of UQ before a posted DISCARD of that step with ABORT_AHEAD, and has not been ended yet (R80). -/
def State.abortDue (s : State) : Bool :=
  s.alive && (match s.run .uq with
    | some r => !r.aborting && s.abortAhead.any (fun x => x.1 != r.seq && r.ofStep x.2)
    | none => s.waiting .uq && s.abortAhead.any (fun x => x.1 != s.nextSeq .uq && (s.newRun .uq).ofStep x.2))

/-- The commands ahead of a posted DISCARD with ABORT_AHEAD ended (R80). -/
def State.abortCleared (s : State) : State :=
  s.abortAhead.foldl (fun s (seq, step) => s.clearAhead seq step (sub32 (s.posted .uq) (s.doneSeq .uq) + 1)) s

/-! BARRIER and FENCE -/

/-- BARRIER carried on (R242, R243). -/
def State.barrierGo (q : Queue) (s : State) (r : Run) : State :=
  let w := r.fld 12 1
  let ok := w = 0xFF || w = qIdx q || s.seqDone (qOf w) (r.fld 8 4)
  if !ok || r.phase = 1 then s
  else if r.fld 13 1 % 2 = 0 then s.complete q r 0x00 []
  else s.setRun q (some { r with phase := 1 })

/-- The arrive flags sent at the boundary that begins the present beat noted: a waiting barrier keeps the first boundary at which its flag was
sent and the last (R243). -/
def State.arriveSent (s : State) : State :=
  [Queue.gq, Queue.aq, Queue.uq, Queue.sq].foldl (fun s q => match s.run q with
    | some r => if r.opc = 0x01 && r.phase = 1 && s.b oBeatSync 31 then s.setRun q (some { r with info := [r.info.headD s.beat, s.beat] }) else s
    | none => s) s

/-- BARRIER at evaluation (R242). -/
def State.barrierEval (q : Queue) (s : State) (r : Run) : State :=
  let w := r.fld 12 1
  let ahead := sub32 r.seq (r.fld 8 4)
  if 4 ≤ w && w != 0xFF then s.complete q r 0x2F []
  else if w = qIdx q && !(0 < ahead && ahead < 2 ^ 31) then s.complete q r 0x2F []
  else s.barrierGo q r

/-- The arrive flags of this member, which it sends while it is locked (R243). -/
def State.arrivals (s : State) : List Arrive :=
  [Queue.gq, Queue.aq, Queue.uq, Queue.sq].map (fun q => match s.run q with
    | some r => if r.opc = 0x01 && r.phase = 1 then ⟨true, r.fld 16 4⟩ else ⟨false, 0⟩
    | none => ⟨false, 0⟩)

/-- FENCE carried on (R419): every command it saw posted has completed. -/
def State.fenceGo (s : State) (r : Run) : State :=
  if r.rows.all (fun (q, seq) => s.seqDone (qOf q) seq) then s.complete .sq r 0x00 [] else s

/-- FENCE at evaluation. -/
def State.fenceEval (s : State) (r : Run) : State :=
  let r := { r with rows := [Queue.gq, Queue.aq, Queue.uq].map (fun q => (qIdx q, s.posted q)) }
  (s.setRun .sq (some r)).fenceGo r

/-! Doubt -/

/-- A YES-voting member without a decision at its flip beat is in doubt and asks the others (R77). No flip beat comes before T_sync
beats have passed since the member's own vote, and the coordinator knows every decision (R75). -/
def State.enterDoubt (s : State) : State :=
  match s.commitRun with
  | some r =>
    if r.phase = 2 && s.commitPhase = 2 && s.commit.decided.isNone && !s.isCoord &&
        (match s.commit.lastVote with | some v => v + tSync s.groupSize ≤ s.beat | none => true) then
      let s := { s with commit := { s.commit with doubtFrom := s.beat } }
      (s.setF oCommitState 31 28 4).send (.query r.step)
    else s
  | none => s

/-- No answer within VOTE_TIMEOUT beats (R77): the COMMIT completes and the doubt stays. -/
def State.doubtTimeout (s : State) : State :=
  match s.commitRun with
  | some r =>
    if s.commitPhase = 4 && s.commit.decided.isNone && s.commit.doubtFrom + s.voteTimeout ≤ s.beat then
      ((s.peerLost (some .uq) r.seq (s.f oCommitGroup 55 48)).complete .uq r 0x22 []).settleHead .uq
    else s
  | none => s

/-- The lowest INST_ID of the group that has not voted (R76): its first silent member. -/
def State.silent (s : State) : Nat :=
  let voted := s.commit.votes.map (·.src)
  ((s.members.filter (fun m => !voted.contains m)).head?).getD (((List.range 256).find? (fun m => !voted.contains m)).getD 0)

/-- A vote is missing VOTE_TIMEOUT beats after the first one (R75). -/
def State.votesOverdue (s : State) : State :=
  if s.isCoord && !s.commit.votes.isEmpty && s.commit.firstVote + s.voteTimeout ≤ s.beat then
    s.announce s.commit.voteStep .abortPeerLost s.beat s.silent 0
  else s

end Sys2Proof.Machine
end

