-- ==== Sys2Proof/Machine/Service.lean ====
section
/-! DEFINITION. SLATE_UPDATE (R194, R195) and the activation stash (R309 to R322).
In a STASH command's Run: `desc` is the block at hand and `tile` its next tile, `info` the codes of the block read so far (data,
then statistics), `copy` the first lane and the lanes of each of its tiles so far, `phase` 1 when a source tile of a block to put was lost, or a write of a block to get, `rows`
the host-side data address and tokens of each block, `banks` the host-side statistics address and entry word 0 of each block, `args` unused.
Its jobs carry the block as `desc`; kind 0 is a tile of 8,192 codes of data, kind 1 one of 8,192 codes (4,096 records) of statistics. -/
namespace Sys2Proof.Machine

/-! Slate -/

/-- A round that reads Slate is bound (R298): until its EMIT_CYAN has completed and every catch-up of it has ended. -/
def State.slateBound (s : State) : Bool :=
  (s.cyan.bound.isSome && !(localEntries s.cyan.boundMap s.me true).isEmpty) ||
    s.cyan.catchups.any (fun c => !(localEntries c.map s.me true).isEmpty)

/-- SLATE_UPDATE at evaluation (R173, R194). -/
def State.slateEval (s : State) (r : Run) : State :=
  let ds := (List.range (r.fld 10 2 + 1 - r.fld 8 2)).map (r.fld 8 2 + ·)
  if 1 < r.fld 12 1 then s.complete .sq r 0x2F []
  else match s.firstBad ds with
    | some (d, 0x24) => (s.badControl .sq r d (64 * d) 64).complete .sq r 0x24 []
    | some (_, code) => s.complete .sq r code []
    | none => s.setRun .sq (some { r with desc := r.fld 8 2 })

/-- Ivory of every descriptor of the command bound (R195), those whose SLATE may be set before their latch (R174) among them. -/
def State.slateBind (s : State) (r : Run) : Run :=
  let ds := (List.range (r.fld 10 2 + 1 - r.fld 8 2)).map (r.fld 8 2 + ·)
  { r with bound := true, step := s.stepNow, banks := ds.map (fun d => (d, (s.desc d).role)) }

/-- The bank that a SLATE_UPDATE reads of a descriptor. -/
def Run.slateBank (r : Run) (d : Desc) : Nat := ((r.banks.find? (·.1 == d.idx)).map (·.2)).getD d.role

/-- What the streams of a SLATE_UPDATE read of a descriptor. -/
def State.slateFeed (s : State) (r : Run) (d : Desc) : Feed :=
  { tiles := d.tiles
    reads := fun _ k =>
      let segs := denseSegs d k
      segs.flatMap (s.convRanges false d (r.slateBank d)) ++
        (if r.fld 12 1 = 1 then segs.flatMap (s.convRanges true d (r.slateBank d)) else []) }

/-- The stream group of a SLATE_UPDATE (R230, R245). -/
def State.slateGroup (s : State) (r : Run) (d : Desc) : List GRing :=
  let out := fmtTileBytes .kw16 0
  svcGroup 120 (s.convTile false d + (if r.fld 12 1 = 1 then out else 0)) out out

/-- Tiles of a SLATE_UPDATE issued. -/
def State.slateIssue : Nat → State → Run → State × Run
  | 0, s, r => (s, r)
  | n + 1, s, r =>
    if !s.mayIssue .sq r then (s, r)
    else if s.slateBound then (s.startRings .sq r.seq (s.slateGroup r (s.desc r.desc)), r)
    else if r.fld 10 2 < r.desc then (s, { r with issued := true })
    else
      let c := if r.latched.isSome then 0 else s.descCheck r.desc
      if c != 0 then (if c = 0x24 then s.badControl .sq r r.desc (64 * r.desc) 64 else s, r.endWith c)
      else
        let ws := r.latched.getD (s.descWords r.desc)
        let d := s.latchedDesc r.desc ws
        if !d.slate then State.slateIssue n s { r with desc := r.desc + 1, t := { r.t with extra := r.t.extra + 1 } }
        else
          let rb := if r.bound then r else s.slateBind r
          let segs := denseSegs d r.tile
          let slate := segs.flatMap (s.convRanges true d d.role)
          match s.issue .sq r 0 r.desc r.tile (segs.foldl (fun k g => k + g.2) 0) ws (s.slateFeed rb d) slate (s.slateGroup r d) with
          | (s, .sent) =>
            State.slateIssue n s (if r.tile + 1 < d.tiles then { rb with tile := r.tile + 1, latched := some ws }
              else { rb with desc := r.desc + 1, tile := 0, latched := none })
          | (s, _) => (s, r)

/-- The completion of a SLATE_UPDATE (R195). -/
def State.slateEnd (s : State) (r : Run) : State :=
  let code := if r.aborting then 0x2F else if nth 0 r.info 0 = 0 then r.t.convResult else nth 0 r.info 0
  s.complete .sq r code [r.step, r.t.tiles, r.t.extra]

/-- SLATE_UPDATE carried on. -/
def State.slateGo (s : State) (r : Run) : State :=
  let (s, r) := s.slateIssue issueMax r
  s.keepOrEnd .sq r State.slateEnd

/-- One element of Slate (R195): COPY or EMA, encoded to KW16; the flag says that KX saturated. -/
def slateElem (ema : Bool) (tau : KX) (w sl : KX) (nanOvf : Bool) (dth : Option Int) : Enc × Bool :=
  if ema then
    let (d, o1) := kxSub w sl
    let (x, o2) := kxFma tau d sl
    (encodeElem .kw16 x none nanOvf dth, o1 || o2)
  else (encodeElem .kw16 w none nanOvf none, false)

/-- A tile of a SLATE_UPDATE completed (R195). -/
def State.slateComplete (s : State) (r : Run) (j : Job) : State × Run :=
  let d := s.latchedDesc j.desc j.words
  let bank := r.slateBank d
  let ema := r.fld 12 1 = 1
  let segs := denseSegs d j.tile
  let rd := segs.flatMap (s.convRanges false d bank) ++ (if ema then segs.flatMap (s.convRanges true d bank) else [])
  let wr := segs.flatMap (s.convRanges true d bank)
  if j.fault != 0 then (s, { r with t := r.t.absent j.fault })
  else match (rd.find? (fun (a, n) => s.lineBad a n)).orElse (fun _ => wr.find? (fun (a, n) => s.mergeBad a n)) with
    | some (a, n) => (s.lineFault (some .sq) r.seq d.idx j.tile 0x24 (s.badAddr a n), { r with t := { r.t with check := true } })
    | none =>
      let t := { r.t with tiles := r.t.tiles + 1 }
      let seg := (8192 * j.tile, min 8192 (d.positions - 8192 * j.tile))
      let void := (List.range seg.2).map (fun i => (d.elemAt (seg.1 + i)).isNone)
      if !d.has 0 then
        let cs := (List.range seg.2).map (fun i => some (Config.freeSite (s.freeCtr + i) % 65536))
        ((s.writeCodes .kw16 (slateAddr d) seg.1 cs).drawn seg.2, { r with t := t })
      else if !ema && d.roleFmt 0 = some .kw16 then
        let cs := List.zipWith (fun v c => if v then none else some c) void
          (s.readCodes .kw16 (roleAddr s.fab.resident (s.variantOf d) d 0 bank) seg.1 seg.2)
        (s.writeCodes .kw16 (slateAddr d) seg.1 cs, { r with t := t })
      else
        let num := numCfgOf (s.reg oNumCfg)
        let flags := r.fld 13 1
        let keyed := flags / 2 % 2 = 1 || num.keyed
        let dither := flags % 2 = 1 && !num.noDither && ema
        let tau : KX := BitVec.ofNat 34 (r.fld 16 5)
        let ws := s.convSrc false d bank seg.1 seg.2
        let ss := if ema then s.convSrc true d bank seg.1 seg.2 else zeroElems seg.2
        let es := (List.zip (List.range seg.2) (ws.zip ss)).map (fun (i, w, sl) =>
          let word := if keyed then keyedWord (s.reg oKeySeed) r.step d.idx (seg.1 + i) 1 else freeWord s.fab.genSeed (s.freeCtr + i)
          slateElem ema tau w.v sl.v (nanMode num 0) (if dither then some (ditherOf (fld word 15 0)) else none))
        let live := (List.zip void (List.zip es (ws.zip ss))).filter (fun x => !x.1)
        let cnt := live.foldl (fun c (_, (e, _), w, sl) =>
          let c := addCounts (addCounts c (encCounts e)) (decCounts w)
          if ema then addCounts c (decCounts sl) else c) zeroCounts
        let s := (s.drawn (seg.2 + 1)).numStat cnt (live.any (fun (_, (_, o), _) => o))
        let s := s.writeCodes .kw16 (slateAddr d) seg.1 (List.zipWith (fun v (e : Enc × Bool) => if v then none else some e.1.code) void es)
        let s := match (List.zip (List.range seg.2) (List.zip void es)).find? (fun (_, v, e, _) => !v && e.nan) with
          | some (i, _) => s.captureNan ⟨.sq, 0x80, 0, Config.freeSite s.freeCtr % 256, d.idx, j.laneOf i, r.seq, j.tile, kxNaN, kxZero, kxZero⟩
          | none => s
        (s, { r with t := { t with nan := t.nan || cnt.nan != 0 } })

/-! The layer table and the index -/

/-- An entry of the layer table (R310). -/
structure Layer where
  heads  : Nat
  dim    : Nat
  base   : Nat
  stride : Nat
  rsv    : Bool
  deriving DecidableEq, Repr

/-- The layer that 32 bytes give (R310). -/
def layerOf (bs : List Byte) : Layer :=
  let w := fun i => BitVec.ofNat 64 (leAt bs (8 * i) 8)
  { heads := fld (w 0) 47 32, dim := fld (w 0) 31 0, base := fld (w 1) 47 0, stride := fld (w 2) 39 0
    rsv := fld (w 0) 63 48 != 0 || fld (w 1) 63 48 != 0 || fld (w 2) 63 40 != 0 || w 3 != 0#64 }

/-- Address of an index entry (R311). -/
def indexAddr (l b : Nat) : Nat := 0x2B010000 + 16 * (2048 * l + b)

/-- The layer entry stands R310. -/
def Layer.ok (l : Layer) : Bool :=
  !l.rsv && l.heads ≤ 256 && 1 ≤ l.dim && l.dim ≤ 65536 && l.base % 256 = 0 && l.stride % 256 = 0

/-- Worst-case encoded data of a number of tokens (R312, R313). -/
def Layer.dataMax (l : Layer) (lossy : Bool) (tokens : Nat) : Nat :=
  if lossy then roundUp (tokens * l.dim) 256 + tokens * cdiv l.dim 32 else 104 * cdiv (tokens * l.dim) 48

/-- Worst-case slot of a mode (R315). -/
def Layer.slotMax (l : Layer) (lossy : Bool) : Nat := roundUp (l.dataMax lossy 2048) 256 + 8 * 2048 * l.heads

/-- Address of a block's slot (R310). -/
def Layer.slot (l : Layer) (b : Nat) : Nat := l.base + b * l.stride

/-- The stash region (R309). -/
def State.stashRegion (s : State) : Nat × Nat := (s.f oStashRegion 47 21 * 2 ^ 21, s.f oStashRegion 15 0 * 2 ^ 21)

/-- Address ranges on the host side of a command: blocks at rising 256-byte boundaries (R316). -/
def hostBlocks (a : Nat) : List Nat → List (Nat × Nat)
  | [] => []
  | n :: t => (a, n) :: hostBlocks (roundUp (a + n) 256) t

/-- A host-side range lies where R317 and R324 allow. -/
def State.hostSideOk (s : State) (a n : Nat) : Bool :=
  let (sb, sn) := s.stashRegion
  n = 0 || (s.landingOk a n && !overlap a n sb sn &&
    !overlap a n (s.cyanBase false) (2 * s.cyanSize) && !overlap a n s.cyanView s.cyanSize)

/-! Encodings -/

/-- Groups of 48 codes stored under R312; a group is stored with the number of zero groups that follow it. n bounds the groups. -/
def packGroups : Nat → List (List Nat) → List Byte
  | 0, _ => []
  | _ + 1, [] => []
  | n + 1, g :: rest =>
    let z := min 65535 ((rest.takeWhile (fun x => x.all (· == 0))).length)
    let mask := (List.zip (List.range g.length) g).foldl (fun m (i, c) => if c = 0 then m else m + 2 ^ i) 0
    let kept := (g.filter (· != 0)).flatMap (leBytes 2)
    leBytes 8 (z * 2 ^ 48 + mask) ++ kept ++ List.replicate (roundUp kept.length 8 - kept.length) 0#8 ++ packGroups n (rest.drop z)

/-- The lossless encoding of some KG16 codes (R312). -/
def encodeLossless (cs : List Nat) : List Byte := packGroups cs.length (blocksOf 48 cs.length cs)

/-- The elements of one group from its mask and kept codes. -/
def unmaskGroup (mask : Nat) : Nat → Nat → List Nat → List Nat
  | _, 0, _ => []
  | i, n + 1, cs =>
    if mask.testBit i then cs.headD 0 :: unmaskGroup mask (i + 1) n (cs.drop 1) else 0 :: unmaskGroup mask (i + 1) n cs

/-- n KG16 codes decoded from the lossless encoding; k bounds the stored groups. -/
def unpackGroups : Nat → Nat → List Byte → List Nat
  | 0, n, _ => List.replicate n 0
  | _ + 1, 0, _ => []
  | k + 1, n, bs =>
    let w := leAt bs 0 8
    let mask := w % 2 ^ 48
    let g := min 48 n
    let kept := ((List.range g).filter (fun i => mask.testBit i)).length
    let cs := unpackWords 2 kept (bs.drop 8)
    let z := min (w / 2 ^ 48 * 48) (n - g)
    unmaskGroup mask 0 g cs ++ List.replicate z 0 ++ unpackGroups k (n - g - z) (bs.drop (8 + roundUp (2 * kept) 8))

/-- n KG16 codes decoded from the lossless encoding (R312). -/
def decodeLossless (n : Nat) (bs : List Byte) : List Nat := unpackGroups (cdiv n 48) n bs

/-- What encoding some elements gave: bytes, what they count, and the places of those that counted NAN. -/
structure StashOut where
  bytes  : List Byte
  counts : Counts
  nans   : List Nat
  deriving DecidableEq, Repr

/-- The lossy encoding of some tokens of KG16 codes (R313). -/
def State.encodeLossy (s : State) (dim : Nat) (cs : List Nat) : StashOut :=
  let cfg : ConvCfg := ⟨.k8p, true, nanMode (numCfgOf (s.reg oNumCfg)) 0, false, 0#64, 0, 0⟩
  let o := (blocksOf dim cs.length cs).foldl (fun (o : ConvOut) tok =>
    let n := convRun cfg 32 (List.zipWith (fun i c => some (decodeElem .kg16 c none, o.codes.length + i)) (List.range tok.length) tok)
    ⟨o.codes ++ n.codes, o.scales ++ n.scales, addCounts o.counts n.counts, o.nans ++ n.nans⟩) ⟨[], [], zeroCounts, []⟩
  let es := o.codes.map (BitVec.ofNat 8)
  ⟨es ++ List.replicate (roundUp es.length 256 - es.length) 0#8 ++ o.scales.map (BitVec.ofNat 8), o.counts, o.nans⟩

/-- The KG16 codes decoded from the lossy encoding of a block, each with what it counts (R313, R318). -/
def State.decodeLossy (s : State) (dim tokens : Nat) (bs : List Byte) : List (Nat × Counts) :=
  let n := tokens * dim
  let per := cdiv dim 32
  let scs := bs.drop (roundUp n 256)
  let nm := nanMode (numCfgOf (s.reg oNumCfg)) 0
  (List.zip (List.range n) (bs.take n)).map (fun (i, b) =>
    let d := decodeElem .k8p b.toNat (some (nth 0#8 scs (i / dim * per + i % dim / 32)).toNat)
    let e := encodeElem .kg16 d.v none nm none
    (e.code, ⟨1, e.ovf.toNat, (d.vanish || e.vanish).toNat, (d.nan || e.nan).toNat, d.viol.toNat⟩))

/-- The KG16 NaN code. -/
def nanKg16 : Nat := Fmt.nanCode .kg16

/-- A statistics record of NaN codes (R319). -/
def nanStat : Nat := Fmt.nanCode .k32a * 2 ^ 32 + Fmt.nanCode .k32a

/-- The places of the NaN codes among some codes. -/
def nanPlaces (f : Fmt) (cs : List Nat) : List Nat :=
  ((List.zip (List.range cs.length) cs).filter (fun x => (decodeElem f x.2 none).nan)).map (·.1)

/-- The codes of statistics records: maximum and sum (R314). -/
def statCodes (ws : List Nat) : List Nat := ws.flatMap (fun w => [w % 2 ^ 32, w / 2 ^ 32])

/-! The commands -/

/-- The layer of a stash command. -/
def State.stashLayer (s : State) (r : Run) : Layer := layerOf (s.bytes (layerAddr (r.fld 8 2)) 32)

/-- Blocks of a stash command. -/
def Run.stashBlocks (r : Run) : List Nat := (List.range (r.fld 12 2)).map (r.fld 10 2 + ·)

/-- Tokens of a block, for a put by the record and for a get by its index entry (R316). -/
def State.stashTokens (s : State) (r : Run) (b : Nat) : Nat :=
  if r.opc = 0x44 then (if b + 1 = r.fld 10 2 + r.fld 12 2 && r.fld 16 2 != 0 then r.fld 16 2 else 2048)
  else s.num (indexAddr (r.fld 8 2) b) 8 / 2 ^ 32 % 2048 + 1

/-- A block's mode: of the record for a put, of its index entry for a get. -/
def State.stashLossy (s : State) (r : Run) (b : Nat) : Bool :=
  if r.opc = 0x44 then r.fld 14 1 % 2 = 1 else bit (BitVec.ofNat 64 (s.num (indexAddr (r.fld 8 2) b) 8)) 62

/-- STASH_PUT and STASH_GET at evaluation (R317, R321, R492). -/
def State.stashEval (s : State) (r : Run) : State :=
  let (lay, first, cnt) := (r.fld 8 2, r.fld 10 2, r.fld 12 2)
  let bs := r.stashBlocks
  let wild := 255 < lay || cnt = 0 || 2048 < cnt || 2048 < first + cnt || 2048 < r.fld 16 2
  let absent := if r.opc = 0x45 && !wild then bs.find? (fun b => s.num (indexAddr lay b) 8 < 2 ^ 63) else none
  let refuse := s.complete .sq r 0x16 absent.toList
  if s.stashRegion.2 = 0 || wild then refuse
  else if s.lineBad (layerAddr lay) 32 then (s.badControl .sq r 0xFFFF (layerAddr lay) 32).complete .sq r 0x24 []
  else
    let l := s.stashLayer r
    let (rb, rn) := s.stashRegion
    let toks := bs.map (s.stashTokens r)
    let data := hostBlocks (r.fld 24 6) (toks.map (fun t => 2 * t * l.dim))
    let stat := hostBlocks (r.fld 32 6) (toks.map (fun t => 8 * t * l.heads))
    if !l.ok || (r.opc = 0x44 && l.stride < l.slotMax (r.fld 14 1 % 2 = 1)) then refuse
    else if r.opc = 0x45 && bs.any (fun b => s.lineBad (indexAddr lay b) 16) then
      (s.badControl .sq r 0xFFFF (indexAddr lay first) (16 * cnt)).complete .sq r 0x24 []
    else if absent.isSome || bs.any (fun b => !(rb ≤ l.slot b && l.slot b + l.slotMax (s.stashLossy r b) ≤ rb + rn)) then refuse
    else if !(data.all (fun (a, n) => s.hostSideOk a n)) || (l.heads != 0 && !(stat.all (fun (a, n) => s.hostSideOk a n))) then refuse
    else
      let xfer := (List.zip bs toks).foldl (fun n (b, t) =>
        n + (if r.opc = 0x44 then 2 * t * l.dim + 8 * t * l.heads else 0) + l.slotMax (s.stashLossy r b)) 0
      let best := r.best || s.f oProfileSnap 15 0 * 1048576 < xfer
      s.setRun .sq (some { r with best := best, desc := first, latched := some (wordsFrom (s.bytes (layerAddr lay) 32) 0 4)
                                  rows := List.zip (data.map (·.1)) toks
                                  banks := List.zip (stat.map (·.1)) (bs.map (fun b => s.num (indexAddr lay b) 8)) })

/-- The layer that a running stash command latched (R310). -/
def Run.layer (r : Run) : Layer := layerOf ((r.latched.getD []).flatMap (fun w => leBytes 8 w.toNat))

/-- Place of a block in its command. -/
def Run.blockAt (r : Run) (b : Nat) : Nat := b - r.fld 10 2

/-- Tokens, data address, statistics address and entry word of a block of a running stash command. -/
def Run.block (r : Run) (b : Nat) : Nat × Nat × Nat × Nat :=
  let d := nth (0, 0) r.rows (r.blockAt b)
  let x := nth (0, 0) r.banks (r.blockAt b)
  (d.2, d.1, x.1, x.2)

/-- Tiles of data in a block. -/
def Run.dataTiles (r : Run) (b : Nat) : Nat := cdiv ((r.block b).1 * r.layer.dim) 8192

/-- Tiles of a block: its data, and its statistics. -/
def Run.blockJobs (r : Run) (b : Nat) : Nat := r.dataTiles b + cdiv ((r.block b).1 * r.layer.heads) 4096

/-- The host-side range of a tile of a block. -/
def Run.hostRange (r : Run) (b t : Nat) : Nat × Nat :=
  let (tok, da, sa, _) := r.block b
  let k := t - r.dataTiles b
  if t < r.dataTiles b then (da + 16384 * t, 2 * min 8192 (tok * r.layer.dim - 8192 * t))
  else (sa + 32768 * k, 8 * min 4096 (tok * r.layer.heads - 4096 * k))

/-- A block is lossy: by the record of a put, by the entry of a get. -/
def Run.blockLossy (r : Run) (b : Nat) : Bool :=
  if r.opc = 0x44 then r.fld 14 1 % 2 = 1 else (r.block b).2.2.2 / 2 ^ 62 % 2 = 1

/-- The slot of a block, at its worst case (R315). -/
def Run.slotRange (r : Run) (b : Nat) : Nat × Nat := (r.layer.slot b, r.layer.slotMax (r.blockLossy b))

/-- What the streams of a stash command read of a block. -/
def Run.stashFeed (r : Run) (b t : Nat) : Feed :=
  { tiles := if t < r.dataTiles b then r.dataTiles b else r.blockJobs b
    reads := fun _ k => [if r.opc = 0x44 then r.hostRange b k else r.slotRange b] }

/-- The stream group of a tile of a stash command (R230, R232): a tile is 16,384 bytes of KG16 codes, 8,448 of lossy ones, at most 17,920 of
lossless ones, or 32,768 of statistics. -/
def Run.stashGroup (r : Run) (b t : Nat) : List GRing :=
  if r.dataTiles b ≤ t then svcGroup 120 32768 32768 32768
  else
    let enc := if r.blockLossy b then 8448 else 17920
    if r.opc = 0x44 then svcGroup 120 16384 enc enc else svcGroup 120 enc 16384 16384

/-- Tiles of a stash command issued; VALID of a block clears before it is written (R318). An index entry that cannot be read ends the command
(R492). -/
def State.stashIssue : Nat → State → Run → State × Run
  | 0, s, r => (s, r)
  | n + 1, s, r =>
    if !s.mayIssue .sq r then (s, r)
    else if r.fld 10 2 + r.fld 12 2 ≤ r.desc then (s, { r with issued := true })
    else
      let m := r.blockJobs r.desc
      let put := r.opc = 0x44
      let host := r.hostRange r.desc r.tile
      let kind := if r.tile < r.dataTiles r.desc then 0 else 1
      let a := indexAddr (r.fld 8 2) r.desc
      if put && r.tile = 0 && s.lineBad a 16 then
        (s.badControl .sq r 0xFFFF a 16, { r with issued := true, t := { r.t with check := true } })
      else match s.issue .sq r kind r.desc r.tile (if kind = 0 then host.2 / 2 else 0) [] (r.stashFeed r.desc r.tile)
          [if put then r.slotRange r.desc else host] (r.stashGroup r.desc r.tile) with
      | (s, .sent) =>
        let s := if put && r.tile = 0 then s.storeNum a 8 (s.num a 8 % 2 ^ 63) else s
        State.stashIssue n s (if r.tile + 1 < m then { r with tile := r.tile + 1 } else { r with desc := r.desc + 1, tile := 0 })
      | (s, _) => (s, r)

/-- The completion of a stash command (R320). -/
def State.stashEnd (s : State) (r : Run) : State :=
  s.complete .sq r (if r.aborting then 0x2F else r.t.convResult) [r.t.descs, r.t.extra, r.t.extra2, r.t.replayed]

/-- STASH_PUT or STASH_GET carried on. -/
def State.stashGo (s : State) (r : Run) : State :=
  let (s, r) := s.stashIssue issueMax r
  s.keepOrEnd .sq r State.stashEnd

/-- STASH_CNT and NUM_STAT advanced (R107, R319, R322). -/
def State.stashCount (s : State) (c : Counts) (nans : Nat) : State :=
  (((s.count oStashCnt 63 32 c.total).count oStashCnt 31 16 c.sat).count oStashCnt 15 0 nans).numStat { c with nan := nans } false

/-- The NaN event of a block in a lane (R319). -/
def State.stashNan (s : State) (r : Run) (b lane : Nat) : State :=
  s.captureNan ⟨.sq, 0x80, 0, if r.opc = 0x44 then 0x50 else 0x51, 0xFFFF, lane, r.seq, 2048 * r.fld 8 2 + b, kxNaN, kxZero, kxZero⟩

/-- A block whose last tile has been read is encoded, stored, and given its entry (R312 to R314, R318, R319): VALID only when all of it has
reached the stack. -/
def State.putBlock (s : State) (r : Run) (b : Nat) : State × Run :=
  let l := r.layer
  let (tok, _, _, _) := r.block b
  let n := tok * l.dim
  let cs := r.info.take n
  let st := r.info.drop n
  let lossy := r.fld 14 1 % 2 = 1
  let o := if lossy then s.encodeLossy l.dim cs else ⟨encodeLossless cs, { zeroCounts with total := n }, nanPlaces .kg16 cs⟩
  let sn := nanPlaces .k32a (statCodes st)
  let nans := o.nans.length + sn.length
  let slot := l.slot b
  let wr := [(slot, o.bytes.length), (slot + roundUp o.bytes.length 256, 8 * st.length)]
  let bad := wr.any (fun (a, k) => s.writeLost a k)
  let s := (s.putBy .sq 0xFFFF slot o.bytes).putBy .sq 0xFFFF (slot + roundUp o.bytes.length 256) (st.flatMap (leBytes 8))
  let poison := r.phase = 1
  let w0 := 2 ^ 63 + (if lossy then 2 ^ 62 else 0) + (if poison then 2 ^ 61 else 0) + (tok - 1) * 2 ^ 32 + o.bytes.length
  let a := indexAddr (r.fld 8 2) b
  let unset := bad || s.writeLost a 16
  let s := if bad then s else s.putBy .sq 0xFFFF a (leBytes 8 w0 ++ leBytes 8 (min nans 0xFFFFFFFF * 2 ^ 32 + r.seq))
  let s := s.stashCount o.counts nans
  let lane := fun k i => let (a, m) := nth (0, 1) r.copy k; (a + i) % max 1 m
  let s := match o.nans, sn with
    | i :: _, _ => s.stashNan r b (lane (i / 8192) (i % 8192))
    | [], i :: _ => s.stashNan r b (lane (r.dataTiles b + i / 8192) (i % 8192))
    | [], [] => s
  let t := { r.t with extra2 := r.t.extra2 + nans, nan := r.t.nan || nans != 0, check := r.t.check || unset,
                         extra := r.t.extra + (if bad then 0 else cdiv o.bytes.length 256) }
  let r := { r with info := [], copy := [], phase := 0, t := t }
  if unset then (s, r)
  else
    let s := if poison then s.count oStashStat 15 0 1 else s
    ({ s with stash := ⟨s.stash.inBytes + 2 * n, s.stash.outBytes + o.bytes.length⟩ }, { r with t := { t with descs := t.descs + 1 } })

/-- A tile of a STASH_PUT completed (R318, R319). -/
def State.putComplete (s : State) (r : Run) (j : Job) : State × Run :=
  let (a, n) := r.hostRange j.desc j.tile
  let k := if j.kind = 0 then 2 else 8
  let bad := j.fault = 0 && s.lineBad a n
  let s := if bad then s.lineFault (some .sq) r.seq 0xFFFF (2048 * r.fld 8 2 + j.desc) 0x21 (s.badAddr a n) else s
  let lost := j.fault != 0 || bad
  let vals := if lost then List.replicate (n / k) (if j.kind = 0 then nanKg16 else nanStat) else unpackWords k (n / k) (s.ext a n)
  let t := if lost then { r.t with poison := true } else r.t
  let r := { r with info := r.info ++ vals, copy := r.copy ++ [(j.lane, j.lanes)], phase := if lost then 1 else r.phase
                    t := { t with tiles := t.tiles + 1 } }
  if j.tile + 1 = r.blockJobs j.desc then s.putBlock r j.desc else (s, r)

/-- Where the source bytes of a tile of a STASH_GET lie in its slot (R315, R316, R318): the statistics, its part of a lossy block with the
scales, or the whole of a lossless block. -/
def Layer.tileSrc (l : Layer) (slot len n tile m st : Nat) (stats lossy : Bool) : List (Nat × Nat) :=
  if stats then [(st, m)]
  else if lossy then
    let e := min 8192 (n - 8192 * tile)
    let per := cdiv l.dim 32
    let lo := 8192 * tile / l.dim * per + 8192 * tile % l.dim / 32
    let hi := (8192 * tile + e - 1) / l.dim * per + (8192 * tile + e - 1) % l.dim / 32
    [(slot + 8192 * tile, e), (slot + roundUp n 256 + lo, hi + 1 - lo)]
  else [(slot, len)]

/-- What a tile of k codes of a block decodes to, with its counts (R314 to R316). -/
def State.stashCodes (s : State) (dim tok slot len tile k : Nat) (lossy : Bool) : List (Nat × Counts) :=
  let bs := s.bytes slot len
  let xs := if lossy then s.decodeLossy dim tok bs
    else (decodeLossless (tok * dim) bs).map (fun c => (c, { zeroCounts with total := 1 }))
  (xs.drop (8192 * tile)).take k

/-- Whether a write of the block under way was not performed, as 1; 0 again after its last tile. -/
def lostMark (last lost : Bool) (before : Nat) : Nat := if last then 0 else if lost then 1 else before

/-- A tile of a STASH_GET completed (R318, R319). -/
def State.getComplete (s : State) (r : Run) (j : Job) : State × Run :=
  let l := r.layer
  let b := j.desc
  let (tok, _, _, w0) := r.block b
  let len := w0 % 2 ^ 32
  let slot := l.slot b
  let poison := w0 / 2 ^ 61 % 2 = 1
  let lossy := w0 / 2 ^ 62 % 2 = 1
  let (a, m) := r.hostRange b j.tile
  let st := slot + roundUp len 256 + 32768 * (j.tile - r.dataTiles b)
  let src := l.tileSrc slot len (tok * l.dim) j.tile m st (j.kind == 1) lossy
  let bad := if j.fault = 0 then src.find? (fun (x, k) => s.lineBad x k) else none
  let s := match bad with
    | some (x, k) => s.lineFault (some .sq) r.seq 0xFFFF (2048 * r.fld 8 2 + b) 0x24 (s.badAddr x k)
    | none => s
  let lost := poison || j.fault != 0 || bad.isSome
  let (cs, c, at_) : List Nat × Counts × List Nat :=
    if j.kind = 1 then
      let ws := if lost then List.replicate (m / 8) nanStat else unpackWords 8 (m / 8) (s.bytes st m)
      (ws, zeroCounts, nanPlaces .k32a (statCodes ws))
    else if lost then (List.replicate (m / 2) nanKg16, { zeroCounts with total := m / 2 }, List.range (m / 2))
    else
      let xs := s.stashCodes l.dim tok slot len j.tile (m / 2) lossy
      (xs.map (·.1), xs.foldl (fun c x => addCounts c x.2) zeroCounts, nanPlaces .kg16 (xs.map (·.1)))
  let merge : Bool := s.writeLost a m
  let s := if s.populated a m then s.putBy .sq 0xFFFF a (cs.flatMap (leBytes (if j.kind = 0 then 2 else 8))) else s
  let nans := at_.length
  let s := s.stashCount c nans
  let s := match at_ with | i :: _ => s.stashNan r b (j.laneOf i) | [] => s
  let t : Tally := if j.fault != 0 then r.t.absent j.fault else r.t
  let last : Bool := j.tile + 1 == r.blockJobs b
  let whole : Bool := last && r.phase == 0 && !merge
  let u := { t with tiles := t.tiles + 1, descs := t.descs + whole.toNat, extra := t.extra + (if merge then 0 else m)
                    extra2 := t.extra2 + nans, nan := t.nan || nans != 0, poison := t.poison || poison
                    check := t.check || bad.isSome || merge }
  (s, { r with phase := lostMark last merge r.phase, t := u })

end Sys2Proof.Machine
end

