-- ==== Sys2Proof/Machine/Flash.lean ====
section
/-! DEFINITION. Flash translation and the bridge (R337 to R348, R413 to R415): geometry, placement, outstanding operations,
retry, Crimson pages, blocks. -/
namespace Sys2Proof.Machine

/-! Geometry -/

/-- The mapping word of a physical page (R338). -/
def physOf (a : FlashAddr) : Nat :=
  a.ch % 8 * 2 ^ 29 + a.lun % 8 * 2 ^ 26 + a.plane % 4 * 2 ^ 24 + a.block % 2 ^ 14 * 2 ^ 10 + a.page % 2 ^ 10

/-- The physical page of a mapping word (R338). -/
def addrOf (p : Nat) : FlashAddr := ⟨nfld p 31 29, nfld p 28 26, nfld p 25 24, nfld p 23 10, nfld p 9 0⟩

/-- FLASH_GEOM.CHANNELS. -/
def State.channels (s : State) : Nat := s.f oFlashGeom 63 60
/-- FLASH_GEOM.LUNS. -/
def State.luns (s : State) : Nat := s.f oFlashGeom 59 56
/-- Blocks of a plane. -/
def State.planeBlocks (s : State) : Nat := s.f oFlashGeom 53 40 + 1
/-- Pages of a block. -/
def State.blockPages (s : State) : Nat := s.f oFlashGeom 39 30 + 1
/-- Blocks of a LUN that the translation may use: all but blocks 0 to 63 of plane 0 (R337). -/
def State.lunBlocks (s : State) : Nat := 2 ^ s.f oFlashGeom 55 54 * s.planeBlocks - 64

/-- The LUNs in service, as 8 × channel + LUN, in round-robin order: across channels, then across LUNs (R339). -/
def State.lunOrder (s : State) : List Nat :=
  (List.range s.luns).flatMap (fun l => (List.range s.channels).map (fun c => 8 * c + l))

/-- The j-th usable block of a LUN, as bits [31:10] of its pages' mapping words. -/
def State.nthBlock (s : State) (lun j : Nat) : Nat :=
  lun * 2 ^ 16 + (j + 64) / s.planeBlocks * 2 ^ 14 + (j + 64) % s.planeBlocks

/-- A block's entry. -/
def State.block (s : State) (k : Nat) : Block := fget blockDflt s.tier.blocks k

/-- A block's entry replaced. -/
def State.setBlock (s : State) (k : Nat) (b : Block) : State :=
  { s with tier := { s.tier with blocks := fset blockDflt s.tier.blocks k b } }

/-- Entries of a LUN's blocks that somebody has used. -/
def State.lunUsed (s : State) (lun : Nat) : List (Nat × Block) := s.tier.blocks.filter (fun e => e.1 / 2 ^ 16 = lun)

/-- Good blocks of a LUN. -/
def State.goodBlocks (s : State) (lun : Nat) : Nat := s.lunBlocks - ((s.lunUsed lun).filter (·.2.state == 3)).length

/-- Free blocks of a LUN. -/
def State.freeBlocks (s : State) (lun : Nat) : Nat := s.lunBlocks - ((s.lunUsed lun).filter (·.2.state != 0)).length

/-- The free block of a LUN with the lowest erase count, or with the highest (R339); the lowest number among equals. -/
def State.pickBlock (s : State) (lun : Nat) (high : Bool) : Option Nat :=
  let used := s.lunUsed lun
  let fresh := ((List.range s.lunBlocks).find? (fun j => !used.any (·.1 == s.nthBlock lun j))).map (s.nthBlock lun)
  let back := used.filter (·.2.state == 0)
  let best := back.foldl (fun (acc : Option (Nat × Block)) e => match acc with
    | none => some e
    | some x => if (if high then x.2.erases < e.2.erases else e.2.erases < x.2.erases) then some e else acc) none
  if high then (best.map (·.1)).orElse (fun _ => fresh) else fresh.orElse (fun _ => best.map (·.1))

/-- Valid units of a block: those mapped into it. -/
def State.validIn (s : State) (k : Nat) : List (Nat × Nat) := s.tier.units.filter (fun e => e.2 / 1024 = k)

/-- A unit's physical page, none when it is unmapped (R338). -/
def State.unitAt (s : State) (u : Nat) : Option Nat :=
  let p := fget unitDflt s.tier.units u
  if p = 0xFFFFFFFF then none else some p

/-- A unit's mapping changed. -/
def State.mapUnit (s : State) (u p : Nat) : State :=
  ({ s with tier := { s.tier with units := fset unitDflt s.tier.units u p } } : State).logTable (0x40000000 + 4 * u) (leBytes 4 p)

/-- A channel has failed (R345). -/
def State.chFailed (s : State) (c : Nat) : Bool := s.b oFlashStat (8 + c % 8)

/-- A LUN can take a program of a class (R341): it has a free block, and its channel has not failed (R345). -/
def State.lunTakes (s : State) (lun : Nat) : Bool := !s.chFailed (lun / 8) && s.freeBlocks lun != 0

/-- FLASH_STAT and FLASH_WEAR brought up to date (R341, R352). -/
def State.flashStat (s : State) : State :=
  if s.channels = 0 then s
  else
    let lus := s.lunOrder
    let share := cdiv (cdiv (s.f oFlashStat 63 48 * 65536) (max 1 lus.length)) s.blockPages
    let spares := lus.map (fun l => s.goodBlocks l - share - 16)
    let low := spares.foldl min 65535
    let used := s.tier.blocks.filter (fun e => e.2.state != 3)
    let all := lus.foldl (fun n l => n + s.goodBlocks l) 0
    let hi := used.foldl (fun n e => max n e.2.erases) 0
    let lo := if used.length < all then 0 else used.foldl (fun n e => min n e.2.erases) 0xFFFFFFFF
    let s := ((s.setF oFlashStat 47 32 low).setB oFlashStat 2 (low < 16)).setB oFlashStat 3 (lus.all (fun l => !s.lunTakes l))
    s.setReg oFlashWear (setFld (setFld 0#64 63 32 hi) 31 0 lo)

/-- A block retired as grown-bad (R341); what it still holds is relocated. -/
def State.retireBlock (s : State) (k : Nat) : State :=
  if (s.block k).state = 3 then s
  else
    let s := (s.setBlock k { s.block k with state := 3 }).count oFlashStat 31 16 1
    { s with tier := { s.tier with refreshQ := if s.tier.refreshQ.contains k then s.tier.refreshQ else s.tier.refreshQ ++ [k] } }

/-! Operations on the bridge -/

/-- The tag of a page that a checkpoint programs (R342). -/
def OpUse.tag : OpUse → Option (Nat × Option (BitVec 32))
  | .ckpt n crc => some (n, some crc)
  | .ckptEnd n => some (n, none)
  | _ => none

/-- The record of an operation sent (R343, R414). -/
def State.sendOp (s : State) (o : BridgeOp) : State :=
  let prog := o.kind = 2
  let r : BridgeRec := ⟨o.ch, o.opid, o.kind, if o.kind = 5 then o.level else 0, if o.kind = 5 then s.f oFlashCfg 55 48 else 0,
    o.addr, if prog then o.data else [], if prog then some o.spare else none, if prog then o.use.tag else none⟩
  { s with out := { s.out with bridge := s.out.bridge ++ [r] } }

/-- What must end before an operation may go out: the erases of region 0 before its pages (R454), the sections of a checkpoint before its commit
record (R342). -/
def OpUse.after : OpUse → OpUse → Bool
  | .image false, .image true => true
  | .ckptEnd n, .ckpt m _ => n == m
  | _, _ => false

/-- An operation may go out (R345, R368): its channel holds fewer than 32, no Amber episode is on, and nothing has to end before it. -/
def State.opGo (s : State) (o : BridgeOp) : Bool :=
  !s.b oAmberStat 1 && (s.tier.ops.filter (·.ch == o.ch)).length < 32 && !(s.tier.ops ++ s.tier.backlog).any (fun x => o.use.after x.use)

/-- An operation issued under an OPID that no outstanding operation of its channel has (R414). -/
def State.issueOp (s : State) (o : BridgeOp) : State :=
  let used := (s.tier.ops.filter (·.ch == o.ch)).map (·.opid)
  let o := { o with opid := ((List.range 256).find? (fun i => !used.contains i)).getD 0, issued := s.beat, reissued := false }
  ({ s with tier := { s.tier with ops := s.tier.ops ++ [o] } } : State).sendOp o

/-- An operation given to its channel, or kept until it may go out. -/
def State.pushOp (s : State) (o : BridgeOp) : State :=
  if s.opGo o then s.issueOp o else { s with tier := { s.tier with backlog := s.tier.backlog ++ [o] } }

/-- Operations kept for a channel issued, at most n of them. -/
def State.drainOps (ch : Nat) : Nat → State → State
  | 0, s => s
  | n + 1, s =>
    match s.tier.backlog.find? (fun o => o.ch == ch && s.opGo o) with
    | some o => State.drainOps ch n (({ s with tier := { s.tier with backlog := s.tier.backlog.erase o } } : State).issueOp o)
    | none => s

/-- Operations kept for every channel issued, as far as they may go out now. -/
def State.drainAll (s : State) : State :=
  if s.tier.backlog.isEmpty then s else (List.range 8).foldl (fun s c => State.drainOps c 32 s) s

/-- An empty spare record. -/
def Spare.none : Spare := ⟨0, 0, 0#32, 0#32, 0⟩

/-- An operation of a kind on a physical page. -/
def mkOp (kind phys level : Nat) (use : OpUse) : BridgeOp := ⟨phys / 2 ^ 29, 0, kind, addrOf phys, use, 0, false, level, [], Spare.none⟩

/-- An operation of a channel by its OPID. -/
def State.opOf (s : State) (ch opid : Nat) : Option BridgeOp := s.tier.ops.find? (fun o => o.ch = ch && o.opid = opid)

/-- An operation no longer outstanding. -/
def State.dropOp (s : State) (ch opid : Nat) : State :=
  { s with tier := { s.tier with ops := s.tier.ops.filter (fun o => !(o.ch = ch && o.opid = opid)) } }

/-- An operation ended: those that wait for its channel are issued. -/
def State.endOp (s : State) (ch opid : Nat) : State := State.drainOps ch 32 (s.dropOp ch opid)

/-- A program or an erase answered: its read status follows as an operation of its own, in the place that it leaves (R343, R415). -/
def State.statusOp (s : State) (o : BridgeOp) : State :=
  let o' := { o with kind := 4 }
  let t := s.dropOp o.ch o.opid
  if s.b oAmberStat 1 then { t with tier := { t.tier with backlog := o' :: t.tier.backlog } } else t.issueOp o'

/-! Placement -/

/-- The next page of an open block taken; a block with its last page taken is full. -/
def State.takePage (s : State) (k : Nat) : State × Nat :=
  let b := s.block k
  (s.setBlock k { b with next := b.next + 1, state := if b.next + 1 < s.blockPages then 1 else 2 }, k * 1024 + b.next)

/-- A block opened for a class; a checkpoint is due after 256 of them (R342). -/
def State.openBlock (s : State) (k cls : Nat) : State :=
  let s := s.setBlock k { s.block k with state := 1, next := 0, cls := cls }
  let n := s.tier.opened + 1
  { s with tier := { s.tier with opened := n, ckptDue := if n < 256 then s.tier.ckptDue else max 1 s.tier.ckptDue } }

/-- A page for a program in a LUN (R339): the next of the open block of its class, or the first of a new block. -/
def State.pageIn (s : State) (lun cls : Nat) : Option (State × Nat) :=
  match (s.lunUsed lun).find? (fun e => e.2.state = 1 && e.2.cls = cls) with
  | some e => some (s.takePage e.1)
  | none => (s.pickBlock lun false).map (fun k => (s.openBlock k cls).takePage k)

/-- A page for the next program of a class (R339): round robin over the LUNs that can take one. -/
def State.place (s : State) (cls : Nat) : Option (State × Nat) :=
  let lus := s.lunOrder
  let n := lus.length
  match (List.range n).find? (fun i => s.lunTakes (nth 0 lus ((s.tier.turn + i) % n))) with
  | some i =>
    let at_ := (s.tier.turn + i) % n
    ({ s with tier := { s.tier with turn := (at_ + 1) % n } } : State).pageIn (nth 0 lus at_) cls
  | none => none

/-- The KIND of a unit (R338): region 2 upward, region 1 downward (R337). -/
def State.unitKind (s : State) (u : Nat) : Nat := if u < 128 * s.f oTierMap 22 0 then 0 else 1

/-! Pages and frames -/

/-- What a page's frame holds forgotten: memory has no entry and no bad line there. -/
def State.clearPage (s : State) (i : Nat) : State :=
  let a := pageAddr i
  { s with mem := s.mem.filter (fun e => !(a ≤ e.1 && e.1 < a + 2 ^ 21))
           badLines := s.badLines.filter (fun l => !(a / 256 ≤ l && l < a / 256 + 8192)) }

/-- A page's frame given back; lines of it that fail their check word go on failing (R358). -/
def State.dropFrame (s : State) (i : Nat) : State :=
  match (s.page i).frame with
  | some f =>
    let a := pageAddr i / 256
    let bad := (s.badLines.filter (fun l => a ≤ l && l < a + 8192)).map (fun l => (s.f oTierMap 48 32 + f) * 8192 + (l - a))
    ({ s with tier := { s.tier with free := (f :: s.tier.free).insertionSort (fun a b => a ≤ b) }
              io := { s.io with badFree := s.io.badFree ++ bad } } : State).setPage i { s.page i with frame := none }
  | none => s

/-- A free frame given out: every line of it is written (R332). -/
def State.takeFrame (s : State) (f : Nat) : State :=
  let l := (s.f oTierMap 48 32 + f) * 8192
  { s with tier := { s.tier with free := s.tier.free.filter (· != f) }
           io := { s.io with badFree := s.io.badFree.filter (fun x => !(l ≤ x && x < l + 8192)) } }

/-- Some unit of a page is mapped (R328). -/
def State.hasFlash (s : State) (i : Nat) : Bool := s.tier.units.any (fun e => e.1 / 128 = i)

/-- The units of a page unmapped. -/
def State.unmapPage (s : State) (i : Nat) : State :=
  { s with tier := { s.tier with units := s.tier.units.filter (fun e => e.1 / 128 != i) } }

/-- A page that gives up its frame without a program (R334): FLASH, or ZERO without a flash copy. -/
def State.leaveFrame (s : State) (i : Nat) : State :=
  let s := (s.dropFrame i).clearPage i
  (s.setPage i { s.page i with st := if s.hasFlash i then .flash else .zero, dirty := false }).pageLogged i

/-- All reads of a promotion that are still under way. -/
def State.promoting (s : State) (i : Nat) : Bool :=
  (s.tier.ops ++ s.tier.backlog).any (fun o => match o.use with | .promote p _ => p == i | _ => false)

/-- Reads of a promotion that nobody waits for any more. -/
def State.voidPromote (s : State) (i : Nat) : State :=
  let mine := fun (o : BridgeOp) => match o.use with | .promote p _ => p == i | _ => false
  let cut := fun (o : BridgeOp) => if mine o then { o with use := .void } else o
  { s with tier := { s.tier with ops := s.tier.ops.map cut, backlog := s.tier.backlog.map cut } }

/-- Slots of the sequencer's rings filled and emptied (R230): read, check, write. -/
def State.seqRings (s : State) (n : Nat) : State := [124, 125, 126].foldl (fun s k => s.passRing (svc k) n) s

/-- A page whose units are all in its frame is RESIDENT (R332). -/
def State.promoted (s : State) (i : Nat) : State :=
  let s := (((s.seqRings 32).setPage i { s.page i with st := .resident, dirty := false }).pageLogged i).count oTierCount 63 32 1
  { s with tier := { s.tier with waits := s.tier.waits.filter (fun w => !(w.page = i && 6 ≤ w.q)) } }

/-! Crimson -/

/-- OUTCOME of CRIMSON_LOG, when it stands for this page (R353). -/
def State.crimsonOutcome (s : State) (i n : Nat) : State :=
  if s.f oCrimsonLog 47 21 = pageAddr i / 2 ^ 21 then s.setF oCrimsonLog 63 61 n else s

/-- The snapshot partner, if one is configured (R370). -/
def State.partner (s : State) : Option Nat := if s.b oSnapCfg 55 then some (s.f oSnapCfg 63 56) else none

/-- A page fetch that failed: POISONED (R347). -/
def State.poison (s : State) (i : Nat) : State :=
  let s := (((s.voidPromote i).dropFrame i).clearPage i)
  let s := { s with tier := { s.tier with fetches := s.tier.fetches.filter (fun x => x.1 != i)
                                          waits := s.tier.waits.filter (fun w => !(w.page = i && 6 ≤ w.q)) } }
  let s := ((s.setPage i { s.page i with st := .poisoned, dirty := false }).pageLogged i).crimsonOutcome i 3
  s.fault ⟨0x0E, true, 0x21, s.f oCrimsonLog 7 5, none, 0, 0xFFFF, 0, pageAddr i⟩

/-- The fetch of a page in FETCHING begun, once its digest is known (R347). -/
def State.fetchTry (s : State) (i : Nat) : State :=
  if s.tier.fetches.any (·.1 == i) then s
  else match s.partner with
    | none => s.poison i
    | some p =>
      let g := s.page i
      if g.got then ({ s with tier := { s.tier with fetches := s.tier.fetches ++ [(i, s.beat)] } } : State).send (.pageFetch p i g.digest)
      else if s.promoting i then s
      else s.poison i

/-- A page turns Crimson (R347, R353). -/
def State.crimson (s : State) (i unit ch : Nat) : State :=
  let s := s.setPage i { s.page i with st := .fetching }
  let w := setFld (setFld (setFld (setFld 0#64 63 61 1) 47 21 (pageAddr i / 2 ^ 21)) 15 8 (unit % 128)) 7 5 ch
  let s := ((s.setReg oCrimsonLog w).setReg oCrimsonBeat (setFld 0#64 47 0 s.beat)).setB oTierStat 1 true
  (s.logFault ⟨0x0E, false, 0, ch, none, 0, 0xFFFF, 0, pageAddr i⟩).fetchTry i

/-! What a read ends with -/

/-- A place in a store: own or mirror, the half, the unit within the half. -/
structure StoreAt where
  own  : Bool
  half : Nat
  ofs  : Nat
  deriving DecidableEq, Repr

/-- Where a unit of region 1 lies (R371): the own store's halves downward from 2^29 − 1, then the mirror store's. -/
def State.storeAt (s : State) (u : Nat) : Option StoreAt :=
  let n := s.f oSnapCfg 47 32 * 65536
  let m := s.f oSnapCfg 31 16 * 65536
  let k := 2 ^ 29 - 1 - u
  if 2 ^ 29 ≤ u then none
  else if k < n then some ⟨true, k / (n / 2), k % (n / 2)⟩
  else if k < n + m then some ⟨false, (k - n) / (m / 2), (k - n) % (m / 2)⟩
  else none

/-- The unit at a place of a store. -/
def State.storeUnit (s : State) (x : StoreAt) : Nat :=
  let n := s.f oSnapCfg 47 32 * 65536
  let m := s.f oSnapCfg 31 16 * 65536
  2 ^ 29 - 1 - (if x.own then x.half * (n / 2) + x.ofs else n + x.half * (m / 2) + x.ofs)

/-- The tiles of a snapshot that a unit of its half holds. -/
def Snap.tilesIn (x : Snap) (ofs : Nat) : List StoreTile :=
  x.tiles.filter (fun t => t.pos < 16384 * (ofs + 1) && 16384 * ofs < t.pos + t.bytes.length)

/-- DAMAGED, and the descriptors of some tiles of an own half marked INCOMPLETE (R378). -/
def State.damage (s : State) (h : Nat) (x : Snap) (ts : List StoreTile) : State :=
  let mark := fun (r : SnapRecord) => if ts.any (fun t => t.id.desc = r.desc) then { r with incomplete := true } else r
  let x := { x with records := x.records.map mark }
  let s := ({ s with res := { s.res with halves := setNth s.res.halves h (some x) } } : State).setB oSnapOpen 1 true
  if !x.sealed then s
  else if x.id = s.f oSnapStat 31 0 then s.setB oSnapOpen 2 true
  else s.setB oSnapOpen 5 true

/-- A lost unit of a store (R378): its own tiles are asked for from the partner's mirror, or their descriptors are marked
INCOMPLETE; the partner is told of a loss in its mirror. -/
def State.storeLost (s : State) (u : Nat) : State :=
  match s.storeAt u with
  | none => s
  | some x =>
    match nth none (if x.own then s.res.halves else s.res.mirHalves) x.half, s.partner with
    | none, _ => s
    | some h, none => if x.own then s.damage x.half h (h.tilesIn x.ofs) else s
    | some h, some p =>
      if !x.own then s.send (.mirrorLost p h.id)
      else if h.unmirrored then s.damage x.half h (h.tilesIn x.ofs)
      else (h.tilesIn x.ofs).foldl (fun s t => s.send (.tileReq p h.id t.id)) s

/-- An uncorrectable unit that relocation, the patrol or a read-through met (R348). -/
def State.lostUnit (s : State) (u ch : Nat) : State :=
  let i := u / 128
  if s.f oTierMap 22 0 ≤ i then s.storeLost u
  else
    let g := s.page i
    if g.served then s.setPage i { g with dirty := true }
    else if g.st = .flash then s.crimson i u ch
    else s

/-- A read that stays uncorrectable after the last retry level (R347, R348). A unit of a store read through reads as lost. -/
def State.readLost (s : State) (o : BridgeOp) : State :=
  match o.use with
  | .promote p u =>
    if (s.page p).st = .promoting then s.crimson p u o.ch else if (s.page p).st = .fetching then s.fetchTry p else s
  | .through u =>
    if u < 128 * s.f oTierMap 22 0 then s.lostUnit u o.ch
    else { s with tier := { s.tier with through := fset (fun _ => [0#8]) s.tier.through u [] } }
  | .relocate u _ _ => (s.retireBlock (physOf o.addr / 1024)).lostUnit u o.ch
  | .patrol u => s.lostUnit u o.ch
  | _ => s

/-- A page read for a use. On a failed channel it is uncorrectable at once (R345). -/
def State.readUnit (s : State) (phys : Nat) (use : OpUse) : State :=
  let o := mkOp 1 phys 0 use
  if s.chFailed o.ch then s.readLost o else s.pushOp o

/-! Relocation and programs -/

/-- A block's valid units read for relocation, and the block put up for erase (R339). -/
def State.relocateBlock (s : State) (k : Nat) (into : Option Nat) : State :=
  let s := if (s.block k).state = 1 then s.setBlock k { s.block k with state := 2 } else s
  let s := (s.validIn k).foldl (fun s (u, p) => s.readUnit p (.relocate u p into)) s
  { s with tier := { s.tier with reclaim := if s.tier.reclaim.contains k then s.tier.reclaim else s.tier.reclaim ++ [k] } }

/-- Garbage collection of a LUN (R339): the full block with the fewest valid units. -/
def State.collect (s : State) (lun : Nat) : State :=
  let cand := (s.lunUsed lun).filter (fun e => e.2.state = 2 && !s.tier.reclaim.contains e.1)
  match cand.foldl (fun (acc : Option (Nat × Nat)) e =>
      let n := (s.validIn e.1).length
      match acc with | none => some (e.1, n) | some x => if n < x.2 then some (e.1, n) else acc) none with
  | some (k, _) => s.relocateBlock k none
  | none => s

/-- An erase that its channel can no longer take goes to another channel (R345): the next LUN in service there gives up a block in its place
(assumption log 26). -/
def State.eraseElsewhere (s : State) : State :=
  match s.lunOrder.find? (fun l => !s.chFailed (l / 8) && (s.lunUsed l).any (fun e => e.2.state = 2 && !s.tier.reclaim.contains e.1)) with
  | some l => s.collect l
  | none => s

/-- STARVED bit of a background class (R36). -/
def greyBit : GreyClass → Nat
  | .scrub => 0 | .link => 1 | .wear => 2 | .telemetry => 3

/-- A background class past its period (R36): its bit set, the beat counted once. -/
def State.starveGrey (s : State) (cls : GreyClass) : State :=
  let s := s.setB oGreyStat (greyBit cls) true
  if s.res.starveAt = s.beat + 1 then s
  else ({ s with res := { s.res with starveAt := s.beat + 1 } } : State).count oGreyStat 63 32 1

/-- A LUN nearly out of free blocks collects in foreground time while a program waits (R339, R36). -/
def State.tightLun (s : State) (lun cls : Nat) : State :=
  if cls = 2 || 4 < s.freeBlocks lun then s
  else
    let s := (s.starveGrey .wear).setStale [0, 1]
    if s.tier.reclaim.any (fun k => k / 2 ^ 16 = lun) then s else s.collect lun

/-- STALE stands while a LUN nearly out of free blocks is being collected (R339). -/
def State.tightStale (s : State) : State :=
  if s.tier.reclaim.any (fun k => s.freeBlocks (k / 2 ^ 16) ≤ 4) then s.setStale [0, 1] else s

/-- A unit programmed (R338, R339): placed, given its spare record, sent. False when no LUN can take it. -/
def State.program (s : State) (cls unit : Nat) (digest : BitVec 32) (data : List Byte) (use : OpUse) : State × Bool :=
  let spot := match use with
    | .relocate _ _ (some k) => if (s.block k).state = 1 && !s.chFailed (k / 2 ^ 19) then some (s.takePage k) else s.place cls
    | _ => s.place cls
  match spot with
  | none => (s, false)
  | some (s, p) =>
    let n := s.tier.wseq + 1
    let s := { s with tier := { s.tier with wseq := n } }
    let o := { mkOp 2 p 0 use with data := data, spare := ⟨unit, n, crc32c data, digest, s.unitKind unit⟩ }
    ((s.pushOp o).tightLun (p / 2 ^ 26) cls, true)

/-- The data of 128 units from a page's bytes. -/
def unitData (bs : List Byte) (k : Nat) : List Byte := (bs.drop (16384 * k)).take 16384

/-- All 128 units of a page programmed; false when no LUN can take one. -/
def State.programPage (s : State) (i : Nat) (digest : BitVec 32) (bs : List Byte) (use : Nat → OpUse) : State × Bool :=
  let s := s.setPage i { s.page i with going := digest }
  (List.range 128).foldl (fun (s, ok) k =>
    if ok then s.program 0 (128 * i + k) digest (unitData bs k) (use (128 * i + k)) else (s, ok)) (s.seqRings 32, true)

/-- A page fetched from the partner (R347, R348): into its frame, or programmed back when it holds none. -/
def State.fetched (s : State) (i : Nat) (bs : List Byte) : State :=
  let s := s.voidPromote i
  let s := { s with tier := { s.tier with fetches := s.tier.fetches.filter (fun x => x.1 != i) } }
  let s := s.crimsonOutcome i 2
  match (s.page i).frame with
  | some _ => (((s.clearPage i).put (pageAddr i) bs).setPage i { s.page i with st := .resident, dirty := true }).pageLogged i
  | none =>
    let (s, ok) := s.programPage i (s.page i).digest bs (fun u => .back i u)
    if ok then s else s.poison i

/-- Blocks whose valid units have all left them erased, unless a read of theirs is in flight or they are bad (R331, R339). -/
def State.reclaimGo (s : State) : State :=
  let ready := s.tier.reclaim.filter (fun k => (s.validIn k).isEmpty &&
    !(s.tier.ops ++ s.tier.backlog).any (fun o => physOf o.addr / 1024 = k))
  let s := { s with tier := { s.tier with reclaim := s.tier.reclaim.filter (fun k => !ready.contains k) } }
  ready.foldl (fun s k =>
    if (s.block k).state = 3 then s else if s.chFailed (k / 2 ^ 19) then s.eraseElsewhere else s.pushOp (mkOp 3 (k * 1024) 0 (.erase k))) s

/-! What operations end with -/

/-- A block queued for refresh (R340). -/
def State.queueRefresh (s : State) (k : Nat) : State :=
  if s.tier.refreshQ.contains k || s.tier.reclaim.contains k then s
  else { s with tier := { s.tier with refreshQ := s.tier.refreshQ ++ [k] } }

/-- A read counted against its block (R340). -/
def State.countRead (s : State) (k : Nat) : State :=
  let b := s.block k
  let s := s.setBlock k { b with reads := b.reads + 1 }
  if s.f oFlashCfg 31 16 * 1024 ≤ b.reads + 1 then s.queueRefresh k else s

/-- Retry level 0 restored after the last attempt (R346). -/
def State.restoreLevel (s : State) (o : BridgeOp) : State :=
  if o.level = 0 then s else s.pushOp { mkOp 5 (physOf o.addr) 0 .void with level := 0 }

/-- A unit read (R332, R339). A block whose unit no LUN can take stays as it is, and may be chosen again later. -/
def State.readOk (s : State) (o : BridgeOp) (data : List Byte) (spare : Spare) : State :=
  match o.use with
  | .promote p u =>
    let g := { s.page p with digest := spare.digest, got := true }
    if g.st = .promoting then
      let s := (s.put (pageAddr p + 16384 * (u % 128)) data).setPage p g
      if s.promoting p then s else s.promoted p
    else if g.st = .fetching then (s.setPage p g).fetchTry p
    else s
  | .through u => { s with tier := { s.tier with through := fset (fun _ => [0#8]) s.tier.through u data } }
  | .relocate u old into =>
    if s.unitAt u != some old then s
    else
      let (s, ok) := s.program 2 u spare.digest data (.relocate u old into)
      if ok then s else { s with tier := { s.tier with reclaim := s.tier.reclaim.filter (· != old / 1024) } }
  | _ => s

/-- The status of a page read (R332, R340, R346): data that fails UNIT_CRC counts as uncorrectable. -/
def State.readStatus (s : State) (ch opid ecc corrected : Nat) (data : List Byte) (spare : Spare) : State :=
  match s.opOf ch opid with
  | none => s
  | some o =>
    if o.kind != 1 then s
    else
      let phys := physOf o.addr
      let data := (data ++ List.replicate (16384 - data.length) 0#8).take 16384
      let s := (s.endOp ch opid).countRead (phys / 1024)
      if 2 ≤ ecc || crc32c data != spare.crc then
        if o.level < s.f oFlashCfg 47 44 then s.pushOp (mkOp 5 phys (o.level + 1) o.use)
        else ((if 0 < o.level then s.queueRefresh (phys / 1024) else s).restoreLevel o).readLost o
      else
        let s := if 0 < o.level || (ecc = 1 && s.f oFlashCfg 15 8 ≤ corrected) then s.queueRefresh (phys / 1024) else s
        (s.restoreLevel o).readOk o data spare

/-- The status of a set features (R346): the read at its level follows. -/
def State.featuresStatus (s : State) (ch opid : Nat) : State :=
  match s.opOf ch opid with
  | none => s
  | some o =>
    if o.kind != 5 then s
    else
      let s := s.endOp ch opid
      if o.level = 0 then s else s.pushOp (mkOp 1 (physOf o.addr) o.level o.use)

/-- A page whose 128 programs have all passed (R334, R348): mapped to its new copy, FLASH; an eviction frees the frame. -/
def State.pageProgrammed (s : State) (i : Nat) (evicted : Bool) : State :=
  let mine := s.tier.placed.filter (·.1 == i)
  let s := { s with tier := { s.tier with placed := s.tier.placed.filter (fun x => x.1 != i) } }
  let s := mine.foldl (fun s x => s.mapUnit x.2.1 x.2.2) s
  let s := if evicted then ((s.dropFrame i).clearPage i).count oTierCount 31 8 1 else s
  (s.setPage i { s.page i with st := .flash, dirty := false, got := true, digest := (s.page i).going }).pageLogged i

/-- A program passed (R334, R339). -/
def State.programOk (s : State) (o : BridgeOp) : State :=
  let p := physOf o.addr
  let note := fun (s : State) (i u : Nat) (ev : Bool) =>
    let pl := s.tier.placed ++ [(i, u, p)]
    let s := { s with tier := { s.tier with placed := pl } }
    if (pl.filter (·.1 == i)).length = 128 then s.pageProgrammed i ev else s
  match o.use with
  | .evict i u => note s i u true
  | .back i u => note s i u false
  | .relocate u old _ => if s.unitAt u = some old then s.mapUnit u p else s
  | .store u => s.mapUnit u p
  | _ => s

/-- Data that no LUN can take any more: an eviction is given up; a page fetched back is lost again. -/
def State.programNowhere (s : State) (use : OpUse) : State :=
  match use with
  | .evict i _ => (s.cancelEvict i).setPage i { s.page i with st := .resident, dirty := true }
  | .back i _ => s.poison i
  | .relocate _ old _ => { s with tier := { s.tier with reclaim := s.tier.reclaim.filter (· != old / 1024) } }
  | _ => s

/-- Where the system area holds a page of a checkpoint (R337, R342): somewhere in blocks 1 to 63 of plane 0 of a LUN in service. The manual does not
say where (assumption log 5). -/
def State.sysPage (s : State) (n : Nat) : Nat :=
  let v := Config.freeFlash n
  nth 0 s.lunOrder (v % max 1 s.lunOrder.length) * 2 ^ 26 + (1 + v / 256 % 63) * 1024 + v / 2 ^ 16 % s.blockPages

/-- A page of a checkpoint programmed (R338, R342). -/
def State.programSys (s : State) (phys : Nat) (data : List Byte) (use : OpUse) : State :=
  let n := s.tier.wseq + 1
  let o := { mkOp 2 phys 0 use with data := data, spare := ⟨Config.freeFlash phys % 2 ^ 32, n, crc32c data, 0#32, 2⟩ }
  ({ s with tier := { s.tier with wseq := n } } : State).pushOp o

/-- A program issued again in another place (R341, R345). A page of region 0 has no other block, and is programmed again where it is (assumption
log 26); on a channel that has failed it is given up. -/
def State.programAgain (s : State) (o : BridgeOp) : State :=
  match o.use with
  | .void => s
  | .image _ => if s.chFailed o.ch then s else s.pushOp { o with kind := 2 }
  | .ckpt _ _ | .ckptEnd _ => (s.programSys (s.sysPage (2 ^ 32 + s.freeCtr)) o.data o.use).drawn 1
  | use =>
    let cls := match use with | .evict _ _ => 0 | .back _ _ => 0 | .relocate _ _ _ => 2 | _ => 1
    let use := match use with | .relocate u old _ => OpUse.relocate u old none | u => u
    let (s, ok) := s.program cls o.spare.unit o.spare.digest o.data use
    if ok then s else s.programNowhere use

/-- An operation that is an erase, or the read status after one. -/
def BridgeOp.erases (o : BridgeOp) : Bool :=
  match o.use with
  | .erase _ | .image true => true
  | _ => false

/-- The status word of a program, which its read status follows (R343), or of the read status after a program (R341). -/
def State.programStatus (s : State) (ch opid : Nat) (failed : Bool) : State :=
  match s.opOf ch opid with
  | none => s
  | some o =>
    if o.kind = 2 then s.statusOp o
    else if o.kind != 4 || o.erases then s
    else
      let s := s.endOp ch opid
      if !failed then s.programOk o
      else if o.use = .image false then s.programAgain o
      else (s.retireBlock (physOf o.addr / 1024)).programAgain o

/-- The status word of an erase, which its read status follows (R343), or of the read status after an erase (R341). -/
def State.eraseStatus (s : State) (ch opid : Nat) (failed : Bool) : State :=
  match s.opOf ch opid with
  | none => s
  | some o =>
    if o.kind = 3 then s.statusOp o
    else if o.kind != 4 || !o.erases then s
    else
      let k := physOf o.addr / 1024
      if o.use = .image true then (if failed then (s.dropOp ch opid).pushOp { o with kind := 3 } else s.endOp ch opid)
      else
        let s := s.endOp ch opid
        if failed then s.retireBlock k
        else s.setBlock k { s.block k with erases := (s.block k).erases + 1, reads := 0, state := 0, next := 0, cls := 0 }

/-- A channel failed (R345): its reads are uncorrectable, its programs and its erases go to other channels. -/
def State.failFlash (s : State) (c : Nat) : State :=
  let s := (s.setB oFlashStat (8 + c % 8) true).logFault (FaultEv.unitOnly 0x0F false 0 c)
  let mine := (s.tier.ops ++ s.tier.backlog).filter (·.ch == c)
  let s := { s with tier := { s.tier with ops := s.tier.ops.filter (·.ch != c), backlog := s.tier.backlog.filter (·.ch != c) } }
  mine.foldl (fun s o =>
    if o.kind = 1 || o.kind = 5 then s.readLost o
    else if !o.erases then s.programAgain o
    else if o.use = .image true then s
    else s.eraseElsewhere) s

/-- An operation has not been answered in its time (R344, R345): issued once more, then its channel fails. -/
def State.bridgeLate (s : State) (ch opid : Nat) : State :=
  match s.opOf ch opid with
  | none => s
  | some o =>
    let limit := s.f oFlashCfg 43 32 * (if o.kind = 3 then 8 else 1)
    if s.beat < o.issued + limit then s
    else if o.reissued then s.failFlash ch
    else
      let o' := { o with reissued := true, issued := s.beat }
      ({ s with tier := { s.tier with ops := s.tier.ops.map (fun x => if x = o then o' else x) } } : State).sendOp o'

end Sys2Proof.Machine
end

