-- ==== Sys2Proof/Machine/Tier.lean ====
section
/-! DEFINITION. Tier pages (R328 to R336, R347 to R353, R377): promotion, timeouts, eviction, the partner's pages, TIER_HINT, and
the background work on flash (R339, R340, R342). In a TIER_HINT's Run, `info` holds the pages acted on. -/
namespace Sys2Proof.Machine

/-- A page's promotion started (R332): it takes a free frame, and every mapped unit is read. No unit of it has been read yet (R347). -/
def State.promoteStart (s : State) (i : Nat) : State :=
  let g := s.page i
  if s.b oAmberStat 1 || s.f oTierMap 22 0 ≤ i || !s.tier.waits.any (fun w => w.page = i && !(w.q = 3 && w.who = readThrough)) || !(g.st = .zero || g.st = .flash) then s
  else match s.tier.free with
    | [] => s
    | f :: _ =>
      let s := ((s.takeFrame f).clearPage i).setPage i { g with st := .promoting, frame := some f, dirty := false, got := false }
      let us := (List.range 128).filterMap (fun k => (s.unitAt (128 * i + k)).map (fun p => (128 * i + k, p)))
      let go := fun (s : State) (x : Nat × Nat) => s.readUnit x.2 (.promote i x.1)
      if us.isEmpty then s.promoted i
      else (us.filter (fun x => s.chFailed (x.2 / 2 ^ 29))).foldl go ((us.filter (fun x => !s.chFailed (x.2 / 2 ^ 29))).foldl go s)

/-- Requests for a page that have waited TIMEOUT beats (R333). TIMEOUT_SEEN records tiles and bursts, no hint. -/
def State.tierLate (s : State) (i : Nat) : State :=
  let due := fun (w : Wait) => w.page = i && !w.late && w.q ≤ 5 && w.since + s.f oTierCfg 63 48 ≤ s.beat
  if (s.page i).served || !s.tier.waits.any due then s
  else
    let seen := s.tier.waits.any (fun w => due w && w.q < 5)
    let ws := s.tier.waits.map (fun w => if due w then { w with late := true } else w)
    let s := { s with tier := { s.tier with waits := ws } }
    if seen then s.setB oTierStat 0 true else s

/-! Eviction -/

/-- A page that eviction may select (R330, R334). -/
def State.evictable (s : State) (i : Nat) (g : Page) : Bool :=
  let (b, n) := s.stashRegion
  g.st = .resident && !g.keep && !(g.dirty && s.b oFlashStat 3) && !overlap (pageAddr i) (2 ^ 21) b n && s.pins i = 0

/-- The eviction clock (R334): over the frames from the hand on, a set REF cleared, the first eligible page with REF clear taken. -/
def State.clock (s : State) : List (Nat × Nat) → State × Option Nat
  | [] => (s, none)
  | (f, i) :: t =>
    let g := s.page i
    if g.ref then (s.setPage i { g with ref := false }).clock t
    else if s.evictable i g then ({ s with tier := { s.tier with hand := f + 1 } }, some i)
    else s.clock t

/-- The frames in use with their pages, in frame order from the hand on. -/
def State.framesFrom (s : State) : List (Nat × Nat) :=
  let all := (s.tier.pages.filterMap (fun e => e.2.frame.map (fun f => (f, e.1)))).insertionSort (fun a b => a.1 ≤ b.1)
  all.filter (fun x => s.tier.hand ≤ x.1) ++ all.filter (fun x => x.1 < s.tier.hand)

/-- A page evicted (R334, R377). Its DIGEST stands in the page table once it is programmed (R329). -/
def State.evict (s : State) (i : Nat) : State :=
  let g := { s.page i with held := false }
  if !g.dirty then (s.setPage i g).leaveFrame i
  else
    let bs := s.bytes (pageAddr i) (2 ^ 21)
    let d := crc32c bs
    let s := s.setPage i { g with st := .evicting }
    let s := match s.partner with
      | some p => if s.b oSnapCfg 53 then s.send (.tierPage p i d bs) else s
      | none => s
    let (s, ok) := s.programPage i d bs (fun u => .evict i u)
    if ok then s else s.programNowhere (.evict i 0)

/-- An eviction (R334): while free frames number fewer than LOW_WATER; pages with DEMOTE set first. -/
def State.evictGo (s : State) : State :=
  if s.b oAmberStat 1 || s.f oTierCfg 47 40 ≤ s.tier.free.length then s
  else match s.tier.pages.find? (fun e => e.2.demote && s.evictable e.1 e.2) with
    | some (i, _) => s.evict i
    | none =>
      if s.b oTierCfg 0 then s
      else
        let fs := s.framesFrom
        match s.clock (fs ++ fs) with
        | (s, some i) => s.evict i
        | (s, none) => s

/-- Pages with DEMOTE set whose eviction a pin or their promotion has put off go at the first boundary without a pin (R331), whatever LOW_WATER
says. -/
def State.evictHeld (s : State) : State :=
  if s.b oAmberStat 1 then s
  else (s.tier.pages.filter (fun e => e.2.demote && e.2.held && s.evictable e.1 e.2)).foldl (fun s e => s.evict e.1) s

/-! The partner's pages -/

/-- The answer to a page fetch (R347). -/
def State.fetchAnswer (s : State) (src i : Nat) (data : Option (List Byte)) : State :=
  if !s.tier.fetches.any (·.1 == i) || s.partner != some src then s
  else match data with
    | some bs => if bs.length = 2 ^ 21 && crc32c bs = (s.page i).digest then s.fetched i bs else s.poison i
    | none => s.poison i

/-- No answer to a page fetch within TIMEOUT beats (R347). -/
def State.fetchLate (s : State) (i : Nat) : State :=
  if s.tier.fetches.any (fun x => x.1 = i && x.2 + s.f oTierCfg 63 48 ≤ s.beat) then s.poison i else s

/-- A partner's page kept in its slot of the mirror store (R377). The slots lie at the end of the store (assumption log 5). -/
def State.keepPage (s : State) (i : Nat) (bs : List Byte) : State :=
  let s := { s with tier := { s.tier with mirPages := fset (fun _ => []) s.tier.mirPages i bs } }
  let base := 2 ^ 29 - (s.f oSnapCfg 47 32 + s.f oSnapCfg 31 16) * 65536
  if s.channels = 0 then s
  else (List.range 128).foldl (fun s k =>
    (s.program 1 (base + 128 * i + k) 0#32 (unitData bs k) (.store (base + 128 * i + k))).1) s

/-- A partner's page answered from its slot (R377), or as having no copy. -/
def State.answerPage (s : State) (src i : Nat) (digest : BitVec 32) : State :=
  let bs := fget (fun _ => []) s.tier.mirPages i
  s.send (.pageData src i (if !bs.isEmpty && crc32c bs = digest then some bs else none))

/-! TIER_HINT -/

/-- The pages of a hint (R335). -/
def Run.hintPages (r : Run) : List Nat := (List.range (r.fld 16 4)).map ((r.fld 8 6 - 0x10000000000) / 2 ^ 21 + ·)

/-- The completion of a hint (R336). -/
def State.hintEnd (s : State) (r : Run) (acted : List Nat) (timedOut : Bool) : State :=
  let ps := r.hintPages
  let act := r.fld 20 1
  let poisoned := fun i => (s.page i).st == .poisoned
  let code := if (act = 0 || act = 5) && ps.any poisoned then 0x21 else if timedOut then 0x23 else 0
  s.complete .sq r code [acted.length, ps.length - acted.length, (ps.filter poisoned).length,
    (ps.filter (fun i => (s.page i).demote && s.pins i != 0)).length]

/-- POISONED pages cleared (R336, R349). -/
def State.clearPoison (s : State) (i : Nat) : State :=
  ((s.unmapPage i).setPage i { s.page i with st := .zero, dirty := false, digest := 0#32, got := false }).crimsonOutcome i 4

/-- The fetch of a POISONED page repeated (R336); it takes a free frame when there is one. -/
def State.refetch (s : State) (i : Nat) : State :=
  let g := s.page i
  let s := match s.tier.free with
    | f :: _ => (s.takeFrame f).setPage i { g with st := .fetching, frame := some f }
    | [] => s.setPage i { g with st := .fetching, frame := none }
  ((s.clearPage i).crimsonOutcome i 1).fetchTry i

/-- TIER_HINT carried on (R336): PREFETCH and REFETCH wait for every page of the range, those they skipped among them. -/
def State.hintGo (s : State) (r : Run) : State :=
  let act := r.fld 20 1
  if act = 0 then
    let ws := s.tier.waits.filter (fun w => w.q = 5)
    let late := fun i => ws.any (fun w => w.page = i && w.late)
    if r.hintPages.all (fun i => (s.page i).served || (s.page i).st = .poisoned || late i) then
      let out := r.hintPages.any (fun i => late i && !(s.page i).served)
      (s.giveUp 5 r.hintPages).hintEnd r r.info out
    else s
  else if act = 4 then
    if r.hintPages.any (fun i => (s.page i).st = .fetching) then s
    else
      let acted := r.hintPages.filter (fun i => (s.page i).st = .poisoned)
      (acted.foldl State.clearPoison s).hintEnd r acted false
  else if r.hintPages.any (fun i => (s.page i).st = .fetching) then s
  else s.hintEnd r r.info false

/-- TIER_HINT at evaluation (R335, R336). An ACTION beyond 5 names nothing: ABORTED (assumption log 12). -/
def State.hintEval (s : State) (r : Run) : State :=
  let a := r.fld 8 6
  let n := r.fld 16 4
  let act := r.fld 20 1
  let ps := r.hintPages
  if a % 2 ^ 21 != 0 || n = 0 || 4194304 < n || a < 0x10000000000 ||
      0x10000000000 + s.f oTierMap 22 0 * 2 ^ 21 < a + n * 2 ^ 21 then s.complete .sq r 0x16 []
  else if 5 < act then s.complete .sq r 0x2F []
  else if act = 0 then
    let acted := ps.filter (fun i => (s.page i).st = .zero || (s.page i).st = .flash)
    let r := { r with info := acted }
    let need := ps.filter (fun i => !(s.page i).served && (s.page i).st != .poisoned)
    ((need.foldl (fun s i => s.request i 5 noRing) s).setRun .sq (some r)).hintGo r
  else if act = 1 then
    let held := fun i => (s.page i).held || (s.page i).st = .promoting || s.pins i != 0
    (ps.foldl (fun s i => s.setPage i { s.page i with demote := true, held := held i }) s).hintEnd r ps false
  else if act = 2 then
    let kept := ((s.tier.pages.filter (fun e => e.2.keep)).map (·.1) ++ ps).eraseDups
    if s.f oTierStat 63 47 - s.f oTierMap 48 32 - 2 * s.f oTierCfg 47 40 < kept.length then s.complete .sq r 0x16 []
    else (ps.foldl (fun s i => s.setPage i { s.page i with keep := true }) s).hintEnd r ps false
  else if act = 3 then
    (ps.foldl (fun s i => s.setPage i { s.page i with keep := false, demote := false, held := false }) s).hintEnd r ps false
  else if act = 4 then s.hintGo r
  else
    let acted := ps.filter (fun i => (s.page i).st = .poisoned)
    let r := { r with info := acted }
    ((acted.foldl State.refetch s).setRun .sq (some r)).hintGo r

/-- The TIER_HINT at the head of SQ taken up by the row of its ACTION. -/
def State.hintServe (act : Nat) (s : State) : State :=
  let s := s.settleHead .sq
  let r := match s.run .sq with | some r => r | none => s.newRun .sq
  if r.fld 20 1 = act || 5 < r.fld 20 1 then s.serve .sq 0x46 State.hintEval State.hintGo else s

/-! Background work on flash -/

/-- Garbage collection of a LUN with fewer than 16 free blocks (R339). -/
def State.gcGo (s : State) (lun : Nat) : State :=
  if !s.lunOrder.contains lun || 16 ≤ s.freeBlocks lun || s.tier.reclaim.any (fun k => k / 2 ^ 16 = lun) then s else s.collect lun

/-- Static wear levelling (R339): the valid units of the least-erased full block move into a free block of its LUN with a high
erase count. -/
def State.wearGo (s : State) : State :=
  if s.f oFlashWear 63 32 ≤ s.f oFlashWear 31 0 + s.f oFlashCfg 7 0 * 16 then s
  else
    let full := s.tier.blocks.filter (fun e => e.2.state = 2 && !s.tier.reclaim.contains e.1)
    match full.foldl (fun (acc : Option (Nat × Block)) e => match acc with
        | none => some e
        | some x => if e.2.erases < x.2.erases then some e else acc) none with
    | none => s
    | some (k, _) =>
      match s.pickBlock (k / 2 ^ 16) true with
      | none => s
      | some b => (s.openBlock b 3).relocateBlock k (some b)

/-- The refresh of the first block queued for it (R340, R341). -/
def State.refreshGo (s : State) : State :=
  match s.tier.refreshQ with
  | [] => s
  | k :: t => ({ s with tier := { s.tier with refreshQ := t } } : State).relocateBlock k none

/-- The patrol (R340): the first, middle and last programmed pages of every block with valid units, once every 2^26 beats. -/
def State.patrolGo (s : State) : State :=
  if s.beat < s.tier.patrolAt then s
  else
    let ks := (s.tier.units.map (fun e => e.2 / 1024)).eraseDups
    let s := { s with tier := { s.tier with patrolAt := s.tier.patrolAt + 2 ^ 26 } }
    ks.foldl (fun s k =>
      let n := ((s.validIn k).map (fun e => e.2 % 1024 + 1)).foldl max (s.block k).next
      ([0, (n - 1) / 2, n - 1].eraseDups).foldl (fun s p =>
        let u := ((s.tier.units.find? (fun e => e.2 = 1024 * k + p)).map (·.1)).getD 0xFFFFFFFF
        s.readUnit (1024 * k + p) (.patrol u)) s) s

/-- The keys at which two tables differ. -/
def diffKeys {V : Type} [DecidableEq V] (a b : FMap V) : List Nat :=
  ((a.filter (fun e => !b.contains e) ++ b.filter (fun e => !a.contains e)).map (·.1)).eraseDups

/-- The 64 KiB sections of the mapping table, and after its 32,768 those of the block table, that have changed since the newest checkpoint (R342). An
entry of the block table has 16 bytes: 64 MiB for the 2^22 blocks of the largest geometry (R327; assumption log 5). -/
def State.ckptSects (s : State) : List Nat :=
  ((diffKeys s.tier.units s.tier.ckptUnits).map (· / 16384) ++ (diffKeys s.tier.blocks s.tier.ckptBlocks).map (fun k => 32768 + k / 4096)).eraseDups

/-- The bytes of a section. Those of the block table are free values, as its layout is not given (assumption log 3). -/
def State.sectBytes (s : State) (k : Nat) : List Byte :=
  if k < 32768 then (List.range 16384).flatMap (fun i => leBytes 4 (fget unitDflt s.tier.units (16384 * k + i)))
  else (List.range 65536).map (fun i => Config.freeByte (0x2C000000 + 65536 * (k - 32768) + i) s.freeCtr)

/-- A section written into the older of its slots, four pages with its tag (R342). -/
def State.ckptSect (num : Nat) (s : State) (k : Nat) : State :=
  let slot := 1 - fget (fun _ => 1) s.tier.slots k
  let bs := s.sectBytes k
  let s := { s with tier := { s.tier with slots := fset (fun _ => 1) s.tier.slots k slot } }
  (List.range 4).foldl (fun s i => s.programSys (s.sysPage (8 * k + 4 * slot + i)) (unitData bs i) (.ckpt num (crc32c bs))) s

/-- The checkpoint (R342): due after a seal or 256 opened blocks. The sections that have changed are programmed with its number, and its commit record
after them. One that follows a seal keeps the lifetime counters (R385). -/
def State.checkpointGo (s : State) : State :=
  if s.tier.ckptDue = 0 then s
  else
    let life := if s.tier.ckptDue = 2 then (List.range 8).map (fun k => s.f (oLife k) 63 0) else s.res.lifeBase
    let num := s.tier.ckpt + 1
    let ks := s.ckptSects
    let units := s.tier.units
    let blocks := s.tier.blocks
    let s := if s.channels = 0 then s
      else
        let s := (ks.foldl (State.ckptSect num) s).drawn (ks.any (32768 ≤ ·)).toNat
        s.programSys (s.sysPage (2 ^ 31 + num)) [] (.ckptEnd num)
    { s with tier := { s.tier with ckpt := num, ckptDue := 0, opened := 0, ckptUnits := units, ckptBlocks := blocks }
             res := { s.res with lifeBase := life } }

end Sys2Proof.Machine
end

