-- ==== Sys2Proof/Machine/Snapshot.lean ====
section
/-! DEFINITION. Snapshots and restores (R360, R370 to R384): the stores, SNAPSHOT, sealing, the partner's mirror, RESTORE and its
confirmation. A store's contents are kept as tiles with their place in the half; its units are programmed as they fill. In a
RESTORE's Run, `phase` is 0 while it waits for tables, 1 while it writes, 2 when it waits for its flip, and `info` then begins with the beat
of that; its jobs carry the descriptor of the snapshot. In a SNAPSHOT's Run, `t.nan` says that a tile has not reached the mirror. -/
namespace Sys2Proof.Machine

/-! The bytes of a tile -/

/-- A role's ranges in a tile. An AUX0 in a program's layout (R209) has no positions; its bytes are shared out evenly over the tiles
(assumption log 13). -/
def roleTile (t : Tvd) (v : Variant) (d : Desc) (role bank tile : Nat) : List (Nat × Nat) :=
  let seg := (8192 * tile, min 8192 (d.positions - 8192 * tile))
  if role = 4 && (auxProgram t v d).isSome then
    let n := aux0Bytes t v d
    let c := cdiv n (max 1 d.tiles)
    [(roleAddr t v d 4 bank + c * tile, min c (n - c * tile))]
  else if d.fmtIdx role = 8 then [(roleAddr t v d role bank + seg.1, seg.2)]
  else roleRanges t v d role bank seg

/-- The ranges of a tile in the order of its digest (R360). -/
def State.tileRanges (s : State) (d : Desc) (bank tile : Nat) (slate : Bool) : List (Nat × Nat) :=
  let t := s.fab.resident
  let v := s.variantOf d
  (if d.has 0 then roleTile t v d 0 bank tile else []) ++ stampRange d bank (8192 * tile, min 8192 (d.positions - 8192 * tile)) ++
  ([1, 2, 4, 5].filter d.has).flatMap (fun role => roleTile t v d role bank tile) ++
  (if slate && d.slate then [(slateAddr d + 16384 * tile, 2 * min 8192 (d.positions - 8192 * tile))] else [])

/-- Bytes of some ranges. -/
def rangesLen (rs : List (Nat × Nat)) : Nat := rs.foldl (fun n r => n + r.2) 0

/-! Reading through (R332) -/

/-- The units of region 2 that some ranges touch. -/
def unitsOf (rs : List (Nat × Nat)) : List Nat :=
  (rs.flatMap (fun (a, n) =>
    if n = 0 ∨ a < 0x10000000000 then []
    else
      let lo := (a - 0x10000000000) / 16384
      (List.range ((a + n - 1 - 0x10000000000) / 16384 + 1 - lo)).map (lo + ·))).eraseDups

/-- Units read through: those not here yet asked for. The flag says that all are here. -/
def State.needUnits (s : State) (us : List Nat) : State × Bool :=
  let miss := us.filter (fun u => !s.tier.through.any (·.1 == u))
  let out := fun u => (s.tier.ops ++ s.tier.backlog).any (fun o => o.use == .through u)
  let ask := (miss.filter (fun u => !out u)).filterMap (fun u => (s.unitAt u).map (fun p => (u, p)))
  (ask.foldl (fun s x => s.readUnit x.2 (.through x.1)) s, miss.isEmpty)

/-- A page that is read through (R331): one in FLASH, or one whose promotion finds such a read in progress. -/
def State.passesBy (s : State) (i : Nat) : Bool :=
  (s.page i).st = .flash || ((s.page i).st = .promoting && (s.tier.through.any (·.1 / 128 == i) ||
    (s.tier.ops ++ s.tier.backlog).any (fun o => match o.use with | .through u => u / 128 == i | _ => false)))

/-- What a SNAPSHOT's reads meet (R331, R332): held pages serve, FLASH pages are read through, no frame is taken. -/
def State.throughGo (s : State) (rs : List (Nat × Nat)) : State × PageGo :=
  let is := s.pagesOf rs
  let slow := is.filter (fun i => (s.page i).st = .fetching || ((s.page i).st = .promoting && !s.passesBy i))
  if is.any (fun i => (s.page i).st = .poisoned) then (s, .absent 0x21)
  else if s.tier.waits.any (fun w => w.q = 3 && w.late && slow.contains w.page) then (s, .absent 0x23)
  else if !slow.isEmpty then (slow.foldl (fun s i => s.request i 3 readThrough) s, .wait)
  else
    let s := (is.filter (fun i => (s.page i).served)).foldl (fun s i => s.touch false i) s
    let us := (unitsOf rs).filter (fun u => s.passesBy (u / 128) && (s.unitAt u).isSome)
    let (s, all) := s.needUnits us
    (s, if all then .go else .wait)

/-- The bytes of some ranges, units read through in their places. -/
def State.bytesThrough (s : State) (rs : List (Nat × Nat)) : List Byte :=
  let t := ((unitsOf rs).filter (fun u => s.passesBy (u / 128))).foldl (fun (t : State) u =>
    t.store (0x10000000000 + 16384 * u) (fget (fun _ => []) s.tier.through u)) s
  rs.flatMap (fun (a, n) => t.bytes a n)

/-! The stores -/

/-- The halves of the own or the mirror store. -/
def State.storeHalves (s : State) (own : Bool) : List (Option Snap) := if own then s.res.halves else s.res.mirHalves

/-- A half replaced. -/
def State.setHalf (s : State) (own : Bool) (h : Nat) (x : Option Snap) : State :=
  { s with res := if own then { s.res with halves := setNth s.res.halves h x } else { s.res with mirHalves := setNth s.res.mirHalves h x } }

/-- The half of a store with a snapshot that meets a condition: of two, the one sealed later (R371). -/
def State.halfWith (s : State) (own : Bool) (p : Snap → Bool) : Option (Nat × Snap) :=
  let at_ := fun h => ((nth none (s.storeHalves own) h).filter p).map (fun x => (h, x))
  match at_ 0, at_ 1 with
  | some x, some y => if x.2.order < y.2.order then some y else some x
  | some x, none => some x
  | none, y => y

/-- The half with a snapshot, sealed or open as asked. -/
def State.halfOf (s : State) (own sealed : Bool) (snapId : Nat) : Option (Nat × Snap) :=
  s.halfWith own (fun x => x.sealed = sealed && x.id = snapId)

/-- The newest sealed snapshot of a store: the one sealed last (R371, R374). -/
def State.newestSeal (s : State) (own : Bool) : Option (Nat × Snap) := s.halfWith own (·.sealed)

/-- A snapshot sealed after every other of its store. -/
def State.sealOrder (s : State) (own : Bool) : Nat := ((s.newestSeal own).map (·.2.order)).getD 0 + 1

/-- Bytes laid over others from a place on. -/
def splice (base : List Byte) (at_ : Nat) (bs : List Byte) : List Byte := base.take at_ ++ bs ++ base.drop (at_ + bs.length)

/-- The 16 KiB of unit k of a half. -/
def Snap.unitBytes (x : Snap) (k : Nat) : List Byte :=
  (x.tilesIn k).foldl (fun acc t =>
    let lo := max t.pos (16384 * k)
    let hi := min (t.pos + t.bytes.length) (16384 * k + 16384)
    splice acc (lo - 16384 * k) ((t.bytes.drop (lo - t.pos)).take (hi - lo))) (List.replicate 16384 0#8)

/-- Some units of a half programmed. -/
def State.programUnits (s : State) (own : Bool) (h : Nat) (x : Snap) (ks : List Nat) : State :=
  if s.channels = 0 then s
  else ks.foldl (fun s k =>
    let u := s.storeUnit ⟨own, h, k⟩
    (s.program 1 u 0#32 (x.unitBytes k) (.store u)).1) s

/-- A tile added to a half; the units it fills are programmed. -/
def State.storeTile (s : State) (own : Bool) (h : Nat) (x : Snap) (t : SnapTile) : State :=
  let x' := { x with tiles := x.tiles.filter (fun e => e.id != t.id) ++ [⟨t.id, t.bytes, t.digest, x.len⟩], len := x.len + t.bytes.length }
  let n := x.len / 16384
  (s.setHalf own h (some x')).programUnits own h x' ((List.range (x'.len / 16384 - n)).map (n + ·))

/-- The end of a part: its last unit programmed, the next part begins at a unit. -/
def State.storePart (s : State) (own : Bool) (h : Nat) (x : Snap) : State :=
  let x' := { x with len := roundUp x.len 16384 }
  (s.setHalf own h (some x')).programUnits own h x' (if x.len % 16384 = 0 then [] else [x.len / 16384])

/-- A descriptor of a snapshot marked INCOMPLETE (R374). -/
def Snap.markIncomplete (x : Snap) (d : Nat) : Snap :=
  { x with records := x.records.map (fun r => if r.desc = d then { r with incomplete := true } else r) }

/-! SNAPSHOT -/

/-- Bytes that a part takes: its tiles, and for each descriptor its record and digest table (R371, R372). -/
def State.partLen (s : State) (ds : List Nat) (slate : Bool) : Nat :=
  ds.foldl (fun n i =>
    let d := s.desc i
    (List.range d.tiles).foldl (fun n t => n + rangesLen (s.tileRanges d d.role t slate)) (n + 64 + 4096 + 4 * d.tiles)) 0

/-- Bytes of an open half in use: its tiles, and the record and the digest table of each of its descriptors (R371). -/
def Snap.used (x : Snap) : Nat :=
  x.records.foldl (fun n e => n + 64 + 4096 + 4 * (descOf e.desc (wordsFrom e.words 0 8)).tiles) x.len

/-- SNAPSHOT at evaluation (R372). One whose step is the present one binds at once. -/
def State.snapEval (s : State) (r : Run) : State :=
  let ds := (List.range (r.fld 14 2 + 1 - r.fld 12 2)).map (r.fld 12 2 + ·)
  let id := r.fld 16 4
  let fl := r.fld 20 1
  let new := fl / 8 % 2 = 1
  let cap := s.f oSnapCfg 47 32 * 2 ^ 29
  let opened := if new then none else s.halfOf true false id
  if r.fld 8 4 < s.stepNow || id = 0 then s.complete .sq r 0x2F []
  else if !new && (s.f oSnapOpen 63 32 != id || (opened.map (·.2.step)) != some (r.fld 8 4)) then s.complete .sq r 0x2F []
  else if cap = 0 || (fl % 2 = 1 && s.partner.isNone) then s.complete .sq r 0x16 []
  else match s.firstBad ds with
    | some (d, 0x24) => (s.badControl .sq r d (64 * d) 64).complete .sq r 0x24 []
    | some (_, code) => s.complete .sq r code []
    | none =>
      let used := match opened with | some (_, x) => x.used | none => 0
      if cap < used + s.partLen ds (fl / 2 % 2 = 1) then s.complete .sq r 0x16 []
      else
        let s := if !new then s
          else
            let h := if (s.newestSeal true).map (·.1) = some 0 then 1 else 0
            let s := s.setHalf true h (some ⟨id, r.fld 8 4, false, false, [], [], 0, 0⟩)
            (s.setReg oSnapOpen (setFld (setFld (s.reg oSnapOpen) 63 32 id) 6 4 0)).setReg oSnapPrev 0#64
        let r := { r with desc := r.fld 12 2 }
        let (s, r) := if r.fld 8 4 = s.stepNow then s.snapBind r else (s, r)
        s.setRun .sq (some r)

/-- The ranges that a SNAPSHOT copies of a tile. -/
def State.snapReads (s : State) (r : Run) (d : Desc) (tile : Nat) : List (Nat × Nat) :=
  s.tileRanges d (((r.banks.find? (·.1 == d.idx)).map (·.2)).getD d.role) tile (r.fld 20 1 / 2 % 2 = 1)

/-- The stream group of a SNAPSHOT (R230, R245): Ivory read, cold write, and the peer mirror when it goes there. -/
def State.snapGroup (s : State) (r : Run) (d : Desc) : List GRing :=
  let b := roundUp (rangesLen (s.snapReads r d 0)) 256
  let g := svcGroup 116 b b b
  if r.fld 20 1 % 2 = 1 then g else g.take 2

/-- How many of at most n tiles of a SNAPSHOT, from one on, can be read now: held, read through, or absent (R332). -/
def State.readable (r : Run) (d : Desc) : Nat → State → Nat → State × Nat
  | 0, s, _ => (s, 0)
  | n + 1, s, t =>
    match s.throughGo (s.snapReads r d t) with
    | (s, .wait) => (s, 0)
    | (s, _) => let (s, k) := State.readable r d n s (t + 1); (s, k + 1)

/-- The entry with a tile filled as far as its tiles can be read (R235, R332). -/
def State.fillThrough (s : State) (r : Run) (d : Desc) (tile : Nat) : State :=
  let k := svc 116
  match (s.ring k).entries.find? (fun e => e.holds d.idx tile) with
  | none => s
  | some e =>
    let (s, n) := State.readable r d (e.count - e.filled) s (e.first + e.filled)
    let x := s.ring k
    s.setRing k { x with entries := x.entries.map (fun e => if e.holds d.idx tile then { e with filled := e.filled + n } else e) }

/-- Tiles of a SNAPSHOT issued. -/
def State.snapIssue : Nat → State → Run → State × Run
  | 0, s, r => (s, r)
  | n + 1, s, r =>
    if !s.mayIssue .sq r then (s, r)
    else if r.fld 14 2 < r.desc then (s, { r with issued := true })
    else
      let c := if r.latched.isSome then 0 else s.descCheck r.desc
      if c != 0 then (if c = 0x24 then s.badControl .sq r r.desc (64 * r.desc) 64 else s, r.endWith c)
      else
        let ws := r.latched.getD (s.descWords r.desc)
        let d := s.latchedDesc r.desc ws
        let (s, r) := if r.bound then (s, r) else s.snapBind r
        let rs := s.snapReads r d r.tile
        let g := s.snapGroup r d
        let (s, ok) := (s.startRings .sq r.seq g).claimAll r.desc r.tile d.tiles true g
        let s := if ok then s.fillThrough r d r.tile else s
        if !ok || !s.readyIn (svc 116) r.desc r.tile then (s.starve r.desc r.tile g, r)
        else
          let (s, pg) := s.throughGo rs
          let f : Nat := match pg with | .absent f => f | _ => 0
          let pins := if f = 0 then (s.pagesOf rs).filter (fun i => (s.page i).st = .resident) else []
          let s := s.takeAll r.desc r.tile g
          let s := if f = 0x23 then s.giveUp 3 (s.pagesOf rs) else s.unwait 3 (s.pagesOf rs)
          let s := if f = 0x21 then s.count oStrmStopped 63 32 1 else s
          let s := if f = 0 then s.chanGet rs else s
          let s := s.addJob { q := .sq, seq := r.seq, desc := r.desc, tile := r.tile, kind := 0, words := ws, fault := f, pages := pins
                              writes := [], lane := 0, lanes := 0, again := false } 0
          State.snapIssue n s (if r.tile + 1 < d.tiles then { r with tile := r.tile + 1, latched := some ws }
            else { r with desc := r.desc + 1, tile := 0, latched := none })

/-- A partner that this instance still hears in beat sync. -/
def State.hears (s : State) (p : Nat) : Bool := s.peer.adverts.any (fun m => m.src == p && s.fresh m)

/-- The open snapshot sealed (R374, R376). -/
def State.sealSnap (s : State) (h : Nat) (x : Snap) : State :=
  let x := { x with sealed := true, order := s.sealOrder true }
  let s := s.setHalf true h (some x)
  let old := s.reg oSnapStat
  let w := s.reg oSnapOpen
  let w := setBit (setBit (setBit w 6 (bit w 3)) 5 (bit w 2)) 4 (fld old 31 0 != 0)
  let w := setFld (setBit (setBit w 3 x.unmirrored) 2 (x.records.any (·.incomplete))) 63 32 0
  let s := ((s.setReg oSnapPrev old).setReg oSnapStat (setFld (setFld 0#64 63 32 x.step) 31 0 x.id)).setReg oSnapOpen w
  let s := { s with tier := { s.tier with ckptDue := 2 } }
  let s := s.life 2 1
  match s.partner with
  | some p => if x.unmirrored then s else s.send (.seal p x.id)
  | none => s

/-- A tile is on its way to the mirror: a port keeps the frame that carries it, as the partner has not acknowledged it (R236, R408). -/
def State.unacked (s : State) (t : TileId) : Bool :=
  s.peer.ports.any (fun p => p.keep.any (fun k => match k.msg with | some (.mirror _ _ _ ts _) => ts.any (·.id == t) | _ => false))

/-- The peer mirror ring of a SNAPSHOT (R230, R236): a tile of it completes when the partner has acknowledged it, and one that was not sent as its
work ends. -/
def State.mirrorSettle (s : State) : State :=
  let k := svc 118
  let y := s.ring k
  match s.run .sq with
  | some r =>
    if r.opc != 0x42 || y.entries.isEmpty then s
    else
      let ended := fun (e : RingEntry) => (List.range e.filled).countP (fun i =>
        !s.unacked ⟨e.desc, e.first + i⟩ && !s.jobs.any (fun j => j.q = .sq && j.desc = e.desc && j.tile = e.first + i))
      let es := y.entries.map (fun e => { e with taken := ended e, done := ended e })
      if es = y.entries then s
      else
        let (es, n) := freeEntries es 0
        s.moveRing k { y with entries := es, retire := (y.retire + n) % 32, lowSeen := y.lowSeen || y.filled < 2 }
  | none => s

/-- Tiles of a SNAPSHOT still wait for the partner to acknowledge them. -/
def State.mirrorOut (s : State) (r : Run) : Bool :=
  r.fld 20 1 % 2 = 1 && (match s.partner with | some p => s.hears p | none => false) && (s.ring (svc 118)).entries.any (·.user = userId .sq r.seq)

/-- The completion of a SNAPSHOT (R236, R373, R374): once its tiles have completed, which the mirror's do when they are acknowledged. -/
def State.snapEnd (s : State) (r : Run) : State :=
  let s := { s with tier := { s.tier with through := [] } }
  if r.aborting then s.snapAbort r
  else if s.mirrorOut r then s.setRun .sq (some r)
  else
    let s := s.snapOver
    let fl := r.fld 20 1
    let mirror := fl % 2 = 1
    let lost := mirror && (r.t.nan || !(match s.partner with | some p => s.hears p | none => false))
    let early := nth 0 r.info 0
    let s := if lost then s.fault ⟨0x15, true, 0x22, s.f oSnapCfg 63 56, some .sq, r.seq, 0xFFFF, 0, 0⟩ else s
    let s := match s.halfOf true false (r.fld 16 4) with
      | none => s
      | some (h, x) =>
        let x := { x with unmirrored := x.unmirrored || !mirror || lost }
        let s := s.storePart true h x
        let part := x.records.filter (fun (e : SnapRecord) => r.fld 12 2 ≤ e.desc && e.desc ≤ r.fld 14 2)
        let s := match s.partner with
          | some p => if mirror && !lost then s.send (.mirror p x.id x.step [] part) else s
          | none => s
        match nth none s.res.halves h with
        | some x => if fl / 16 % 2 = 1 && early = 0 then s.sealSnap h x else s
        | none => s
    let code := if early != 0 then early else if r.t.poison then 0x21 else if r.t.timeout then 0x23 else if r.t.check then 0x24
      else if lost then 0x22 else if r.t.recovered then 0x03 else 0x00
    s.complete .sq r code [r.t.tiles, r.t.extra, r.t.drops, r.gated]

/-- SNAPSHOT carried on (R372): it waits for its step. -/
def State.snapGo (s : State) (r : Run) : State :=
  if !r.bound && r.fld 8 4 != s.stepNow then s
  else
    let (s, r) := s.mirrorSettle.snapIssue issueMax r
    s.keepOrEnd .sq r State.snapEnd

/-- Tiles of the mirror acknowledged, or lost with their port (R236): the SNAPSHOT ends when it has waited for nothing else. -/
def State.mirrorHeard (s : State) : State :=
  let s := s.mirrorSettle
  match s.run .sq with
  | some r => if r.opc = 0x42 && r.issued then (s.keepOrEnd .sq r State.snapEnd).settleHead .sq else s
  | none => s

/-- Frames to the mirror lost with a port (R374): their snapshot is UNMIRRORED, and the running SNAPSHOT ends FAULT_PEER_LOST. -/
def State.mirrorCut (s : State) (lost : List PeerMsg) : State :=
  let ids := lost.filterMap (fun m => match m with | .mirror _ id _ _ _ => some id | _ => none)
  if ids.isEmpty then s
  else
    let hs := s.res.halves.map (fun (h : Option Snap) => h.map (fun x =>
      if !x.sealed && ids.contains x.id then { x with unmirrored := true } else x))
    let s := { s with res := { s.res with halves := hs } }
    match s.run .sq with
    | some r => if r.opc = 0x42 && ids.contains (r.fld 16 4) then s.setRun .sq (some { r with t := { r.t with nan := true } }) else s
    | none => s

/-- A tile of a SNAPSHOT completed (R360, R371, R374), its sources held or read through. -/
def State.snapComplete (s : State) (r : Run) (j : Job) : State × Run :=
  let d := s.latchedDesc j.desc j.words
  let rs := s.snapReads r d j.tile
  match s.halfOf true false (r.fld 16 4) with
  | none => (s, r)
  | some (h, x) =>
    let miss := fun (s : State) (t : Tally) =>
      (s.setHalf true h (some (x.markIncomplete j.desc)), { r with t := { t with drops := t.drops + 1 } })
    if j.fault != 0 then miss s (r.t.absent j.fault)
    else match rs.find? (fun (a, n) => s.lineBad a n) with
      | some (a, n) => miss (s.lineFault (some .sq) r.seq d.idx j.tile 0x24 (s.badAddr a n)) { r.t with check := true }
      | none =>
        let bs := s.bytesThrough rs
        let t : SnapTile := ⟨⟨j.desc, j.tile⟩, bs, crc32c bs⟩
        let s := s.storeTile true h x t
        let r := { r with t := { r.t with tiles := r.t.tiles + 1 } }
        if r.fld 20 1 % 2 = 0 then (s, r)
        else match s.partner.filter s.hears with
          | some p => (s.send (.mirror p x.id x.step [t] []), { r with t := { r.t with extra := r.t.extra + 1 } })
          | none => (s, { r with t := { r.t with nan := true } })

/-! The partner's mirror -/

/-- Tiles and records of a partner's snapshot (R373): kept in the mirror store, which opens a half for a new one. -/
def State.mirrorTake (s : State) (id step : Nat) (tiles : List SnapTile) (records : List SnapRecord) : State :=
  if s.f oSnapCfg 31 16 = 0 then s
  else
    let s := s.passRing (svc 117) tiles.length
    let s : State := match s.halfOf false false id with
      | some _ => s
      | none =>
        s.setHalf false (if (s.newestSeal false).map (·.1) = some 0 then 1 else 0) (some ⟨id, step, false, false, [], [], 0, 0⟩)
    match s.halfOf false false id with
    | none => s
    | some (h, _) =>
      let s := tiles.foldl (fun s t => match nth none s.res.mirHalves h with | some x => s.storeTile false h x t | none => s) s
      match nth none s.res.mirHalves h with
      | some x => s.setHalf false h (some { x with
          records := x.records.filter (fun e => !records.any (·.desc == e.desc)) ++ records })
      | none => s

/-- A partner's snapshot sealed (R374). -/
def State.mirrorSeal (s : State) (id : Nat) : State :=
  match s.halfOf false false id with
  | some (h, x) => (s.storePart false h x).setHalf false h (some { x with sealed := true, len := roundUp x.len 16384, order := s.sealOrder false })
  | none => s

/-- The digest table of a descriptor of a snapshot. -/
def Snap.table (x : Snap) (r : SnapRecord) : DigestTable :=
  let mine := x.tiles.filter (fun t => t.id.desc = r.desc)
  let n := mine.foldl (fun n t => max n (t.id.tile + 1)) 0
  ⟨r, (List.range n).map (fun i => (mine.find? (fun t => t.id.tile = i)).map (·.digest))⟩

/-- The digest tables of a range of a snapshot. -/
def Snap.tablesOf (x : Snap) (first last : Nat) : List DigestTable :=
  (x.records.filter (fun r => first ≤ r.desc && r.desc ≤ last)).map x.table

/-- The digest tables asked for by a partner (R381); SNAP_ID 0 asks for the newest sealed snapshot. -/
def State.digestReply (s : State) (src id first last : Nat) : State :=
  match (if id = 0 then s.newestSeal false else s.halfOf false true id) with
  | some (_, x) => s.send (.digests src x.id x.step (x.tablesOf first last))
  | none => s.send (.digests src id 0 [])

/-- A tile asked for by a partner (R378, R381), from the mirror store. -/
def State.tileReply (s : State) (src id : Nat) (t : TileId) : State :=
  let x := ((s.halfOf false true id).orElse (fun _ => s.halfOf false false id)).map (·.2)
  s.send (.tileData src id t ((x.bind (fun x => x.tiles.find? (·.id == t))).map (·.bytes)))

/-- The partner lost a unit of the mirror of a snapshot (R378). -/
def State.mirrorLoss (s : State) (id : Nat) : State :=
  let hs := s.res.halves.map (fun (h : Option Snap) => h.map (fun x => if x.id = id then { x with unmirrored := true } else x))
  let s := { s with res := { s.res with halves := hs } }
  let s := if id != 0 && id = s.f oSnapStat 31 0 then s.setB oSnapOpen 3 true else s
  if id != 0 && s.b oSnapOpen 4 && id = s.f oSnapPrev 31 0 then s.setB oSnapOpen 6 true else s

/-- A lost tile of the own store that the partner has sent (R378): programmed again, or its descriptor is INCOMPLETE. -/
def State.repairTile (s : State) (id : Nat) (t : TileId) (data : Option (List Byte)) : State :=
  match (s.halfOf true true id).orElse (fun _ => s.halfOf true false id) with
  | none => s
  | some (h, x) =>
    match x.tiles.find? (·.id == t) with
    | none => s
    | some e =>
      match data with
      | some bs =>
        if crc32c bs = e.digest && bs.length = e.bytes.length then
          let ks := (List.range ((e.pos + bs.length - 1) / 16384 + 1 - e.pos / 16384)).map (e.pos / 16384 + ·)
          s.programUnits true h x ks
        else s.damage h x [e]
      | none => s.damage h x [e]

/-! RESTORE -/

/-- The snapshot that a RESTORE may name (R376, R380): sealed, in SNAP_STAT or SNAP_PREV; 0 is the newest. -/
def State.namedSnap (s : State) (id : Nat) : Option Snap :=
  let newest := s.f oSnapStat 31 0
  let id := if id = 0 then newest else id
  if id = 0 || !(id = newest || (s.b oSnapOpen 4 && id = s.f oSnapPrev 31 0)) then none
  else (s.halfOf true true id).map (·.2)

/-- A snapshot record fits a target (R380). -/
def recordFits (r : SnapRecord) (d : Desc) : Bool :=
  let x := descOf r.desc (wordsFrom r.words 0 8)
  x.rows = d.rows && x.cols = d.cols && x.order = d.order && x.align = d.align && x.stamped = d.stamped && x.slate = d.slate &&
    x.fmt = d.fmt

/-- A running RESTORE's descriptors with their targets (R379). -/
def Run.restPairs (r : Run) : List (Nat × Nat) :=
  (List.range (r.fld 14 2 + 1 - r.fld 12 2)).map (fun i => (r.fld 12 2 + i, r.fld 16 2 + i))

/-- FROM_PARTNER of a RESTORE. -/
def Run.fromPartner (r : Run) : Bool := r.fld 20 1 / 2 % 2 = 1

/-- The records that a range lacks or that do not fit their targets (R380). -/
def State.restBad (s : State) (r : Run) (recs : List SnapRecord) : Bool :=
  r.restPairs.any (fun (d, t) => match recs.find? (·.desc == d) with
    | some e => e.incomplete || !recordFits e (s.desc t)
    | none => true)

/-- RESTORE at evaluation (R380, R381). With FROM_PARTNER it asks for no digest tables, but for the snapshot's records: those of R380, and the digests
that its tiles are verified against (assumption log 27). -/
def State.restEval (s : State) (r : Run) : State :=
  let ts := r.restPairs.map (·.2)
  if s.commitPhase != 0 || (s.run .uq).isSome || ts.any s.step.written.contains then s.complete .sq r 0x2F []
  else match s.firstBad ts with
    | some (d, 0x24) => (s.badControl .sq r d (64 * d) 64).complete .sq r 0x24 []
    | some (_, code) => s.complete .sq r code []
    | none =>
      let snap := s.namedSnap (r.fld 8 4)
      if r.fromPartner then
        match s.partner with
        | none => s.complete .sq r 0x16 []
        | some p =>
          let st : RestoreSt := ⟨p, r.fld 8 4, r.fld 12 2, r.fld 14 2, r.fld 16 2, s.beat, none, [], [], false⟩
          (({ s with res := { s.res with restore := some st } } : State).send (.recordReq p (r.fld 8 4) (r.fld 12 2) (r.fld 14 2))).setRun .sq
            (some { r with desc := r.fld 12 2 })
      else match snap with
        | none => s.complete .sq r 0x16 []
        | some x =>
          if s.restBad r x.records then s.complete .sq r 0x16 []
          else
            let st : RestoreSt := ⟨(s.partner).getD 0, x.id, r.fld 12 2, r.fld 14 2, r.fld 16 2, s.beat, none, [], [], s.partner.isNone⟩
            let s := { s with res := { s.res with restore := some st } }
            let s := match s.partner with | some p => s.send (.digestReq p x.id (r.fld 12 2) (r.fld 14 2)) | none => s
            s.setRun .sq (some { r with desc := r.fld 12 2, step := x.step })

/-- The digest that the partner's tables give a tile, if they came and hold it. -/
def RestoreSt.digestOf (x : RestoreSt) (t : TileId) : Option (BitVec 32) :=
  x.tables.bind (fun ts => (ts.find? (·.record.desc == t.desc)).bind (fun e => nth none e.digests t.tile))

/-- The tile of the local copy. -/
def State.localTile (s : State) (x : RestoreSt) (t : TileId) : Option (Nat × StoreTile) :=
  (s.halfOf true true x.snapId).bind (fun (h, y) => (y.tiles.find? (·.id == t)).map (fun e => (h, e)))

/-- The units of the own store that hold a tile. -/
def State.tileUnits (s : State) (h : Nat) (e : StoreTile) : List Nat :=
  if e.bytes.isEmpty then []
  else (List.range ((e.pos + e.bytes.length - 1) / 16384 + 1 - e.pos / 16384)).map (fun i => s.storeUnit ⟨true, h, e.pos / 16384 + i⟩)

/-- The bytes of a tile as its units were read, none when one could not be. -/
def State.tileRead (s : State) (h : Nat) (e : StoreTile) : Option (List Byte) :=
  let parts := (s.tileUnits h e).map (fun u => fget (fun _ => []) s.tier.through u)
  if parts.any (·.isEmpty) then none else some ((parts.flatten.drop (e.pos % 16384)).take e.bytes.length)

/-- A tile's bytes written into a target's bank, and into Slate when they reach so far (R381). -/
def State.restWrite (s : State) (d : Desc) (bank tile : Nat) (bs : List Byte) : State × Bool :=
  let slate := rangesLen (s.tileRanges d bank tile false) < bs.length
  let rs := s.tileRanges d bank tile slate
  if rs.any (fun (a, n) => s.writeLost a n) then (s, false)
  else ((rs.foldl (fun (s, bs) (a, n) => (s.put a (bs.take n), bs.drop n)) (s, bs)).1, true)

/-- The ranges that a tile of a RESTORE writes. -/
def State.restRanges (s : State) (x : RestoreSt) (d : Desc) (t : TileId) : List (Nat × Nat) :=
  let plain := s.tileRanges d d.umber t.tile false
  match s.localTile x t with
  | some (_, e) => s.tileRanges d d.umber t.tile (rangesLen plain < e.bytes.length)
  | none => s.tileRanges d d.umber t.tile true

/-- The stream group of a RESTORE (R230, R245): the cold ring, or the peer ring, brings the tiles, and the first ring takes them to the bank
(assumption log 20). -/
def State.restGroup (s : State) (r : Run) (d : Desc) : List GRing :=
  let n := slotTiles 0 (roundUp (rangesLen (s.tileRanges d d.umber 0 true)) 256)
  [⟨svc (if r.fromPartner then 118 else 117), n, false⟩, ⟨svc 116, n, true⟩]

/-- Tiles of a RESTORE issued (R174, R380, R381): the local copy is read from the store, or the tile asked for from the partner. -/
def State.restIssue : Nat → State → Run → RestoreSt → State × Run
  | 0, s, r, _ => (s, r)
  | n + 1, s, r, x =>
    if !s.mayIssue .sq r then (s, r)
    else if r.fld 14 2 < r.desc then (s, { r with issued := true })
    else
      let td := r.fld 16 2 + (r.desc - r.fld 12 2)
      let c := if r.latched.isSome then 0 else s.descCheck td
      if c != 0 then (if c = 0x24 then s.badControl .sq r td (64 * td) 64 else s, { r with issued := true, info := [0, c] })
      else
      let ws := r.latched.getD (s.descWords td)
      let d := s.latchedDesc td ws
      let t : TileId := ⟨r.desc, r.tile⟩
      let (s, here) : State × Bool := if r.fromPartner then (s, true)
        else match s.localTile x t with
          | none => (s, true)
          | some (h, e) =>
            let us := s.tileUnits h e
            s.needUnits (us.filter (fun u => (s.unitAt u).isSome))
      let s := s.startRings .sq r.seq (s.restGroup r d)
      if !here || !s.bankFree td d.umber r.tile then (s, r)
      else match s.issue .sq r 0 r.desc r.tile 0 ws { tiles := d.tiles, reads := fun _ _ => [] } (s.restRanges x d t) (s.restGroup r d) with
        | (s, .sent) =>
          let s := if !r.fromPartner then s
            else match s.res.restore with
              | some y => ({ s with res := { s.res with restore := some { y with pend := y.pend ++ [t] } } } : State).send (.tileReq y.src y.snapId t)
              | none => s
          State.restIssue n s (if r.tile + 1 < d.tiles then { r with tile := r.tile + 1, latched := some ws }
            else { r with desc := r.desc + 1, tile := 0, latched := none }) x
        | (s, _) => (s, r)

/-- All tiles are dealt with: the RESTORE waits for its flip (R382). What it has not restored fails (R174). -/
def State.restEnd (s : State) (r : Run) : State :=
  if r.phase = 2 then s
  else
    let left := (r.restPairs.map (·.1)).filter (fun d => r.desc ≤ d)
    let s := match s.res.restore with
      | some x => { s with res := { s.res with restore := some { x with failed := x.failed ++ left.filter (fun d => !x.failed.contains d) } } }
      | none => s
    s.setRun .sq (some { r with phase := 2, info := [s.beat, nth 0 r.info 1] })

/-- RESTORE carried on (R381). -/
def State.restGo (s : State) (r : Run) : State :=
  match s.res.restore with
  | none => s
  | some x =>
    if r.phase = 2 || !(x.tables.isSome || x.waited) then s
    else
      let (s, r) := s.restIssue issueMax { r with phase := 1 } x
      s.keepOrEnd .sq r State.restEnd

/-- The partner's tables have come, or their time is over (R381). -/
def State.restTables (s : State) (src : Nat) (id step : Nat) (ts : List DigestTable) : State :=
  match s.res.restore with
  | none => s
  | some x =>
    if x.src != src || x.tables.isSome then s
    else match s.run .sq with
      | some r =>
        if r.opc != 0x43 then { s with res := { s.res with restore := some { x with tables := some ts } } }
        else if x.waited then s
        else if r.fromPartner then
          if ts.isEmpty || s.restBad r (ts.map (·.record)) then
            (({ s with res := { s.res with restore := none } } : State).complete .sq r 0x16 []).settleHead .sq
          else
            let s := { s with res := { s.res with restore := some { x with tables := some ts, snapId := id } } }
            s.setRun .sq (some { r with step := step })
        else { s with res := { s.res with restore := some (if ts.isEmpty then { x with waited := true } else { x with tables := some ts }) } }
      | none => { s with res := { s.res with restore := some { x with tables := some ts } } }

/-- VOTE_TIMEOUT beats without tables (R381). FROM_PARTNER waits for no tables; but nothing can be read, and every target fails, once the partner is
heard no longer (assumption log 27). -/
def State.restLate (s : State) : State :=
  match s.res.restore, s.run .sq with
  | some x, some r =>
    if r.opc != 0x43 || x.tables.isSome || x.waited || s.beat < x.asked + s.voteTimeout || (r.fromPartner && s.hears x.src) then s
    else if r.fromPartner then
      (({ s with res := { s.res with restore := none } } : State).complete .sq r 0x24 [0, 0, r.restPairs.length, 0]).settleHead .sq
    else { s with res := { s.res with restore := some { x with waited := true } } }
  | _, _ => s

/-- A tile of a RESTORE that cannot be restored. -/
def State.restFail (s : State) (d : Nat) : State :=
  match s.res.restore with
  | some x => { s with res := { s.res with restore := some { x with failed := if x.failed.contains d then x.failed else x.failed ++ [d] } } }
  | none => s

/-- A tile of a RESTORE written (R381), or failed when it could not be. -/
def State.restTile (s : State) (r : Run) (j : Job) (bs : List Byte) (fetched : Bool) : State × Run :=
  let d := s.latchedDesc (r.fld 16 2 + (j.desc - r.fld 12 2)) j.words
  let (s, ok) := s.restWrite d d.umber j.tile bs
  if ok then (s, { r with t := { r.t with tiles := r.t.tiles + 1, extra := r.t.extra + fetched.toNat } })
  else (s.restFail j.desc, { r with t := { r.t with check := true } })

/-- The oldest tile of a RESTORE dealt with (R381). The flag says that it stays in flight: its bytes are on their way from the
partner. -/
def State.restComplete (s : State) (r : Run) (j : Job) : State × Run × Bool :=
  match s.res.restore with
  | none => (s, r, false)
  | some x =>
    let t : TileId := ⟨j.desc, j.tile⟩
    let fail := (s.restFail j.desc, { r with t := { r.t.absent j.fault with check := true } }, false)
    if j.fault != 0 then fail
    else if x.pend.contains t then (s, r, true)
    else match s.localTile x t with
      | none => fail
      | some (h, e) =>
        let want := (x.digestOf t).getD e.digest
        match (s.tileRead h e).filter (fun bs => crc32c bs = want) with
        | some bs =>
          let (s, r) := s.restTile r j bs false
          (s, r, false)
        | none =>
          if (x.digestOf t).isSome && s.hears x.src then
            (({ s with res := { s.res with restore := some { x with pend := x.pend ++ [t] } } } : State).send (.tileReq x.src x.snapId t), r, true)
          else fail

/-- A tile that a RESTORE fetched (R381): verified against the partner's table. -/
def State.restFetched (s : State) (r : Run) (j : Job) (data : Option (List Byte)) : State × Run :=
  match s.res.restore with
  | none => (s, r)
  | some x =>
    let t : TileId := ⟨j.desc, j.tile⟩
    let s := { s with res := { s.res with restore := some { x with pend := x.pend.filter (· != t) } } }
    match data.filter (fun bs => some (crc32c bs) = x.digestOf t) with
    | some bs => s.restTile r j bs true
    | none => (s.restFail j.desc, { r with t := { r.t with check := true } })

/-- The committed amax fields of a restored target, from the snapshot's statistics page (R381). -/
def State.restAmax (s : State) (d : Nat) (page : List Byte) : State :=
  (List.range 24).foldl (fun s i =>
    let a := siteRec d i
    let p := page.drop (128 * i)
    s.putBy .sq d (a + 28) ((p.drop 28).take 2 ++ s.bytes (a + 30) 2 ++ (p.drop 32).take 65)) (s.clearPending .sq d)

/-- The gradient path after SET_STEP (R258, R270, R276, R382): the open step follows the restored one, and nothing of it has been folded,
closed or reduced yet. -/
def State.restGrad (s : State) (step : Nat) : State :=
  let s := s.grad.descs.foldl (fun s d =>
    ((s.storeNum (foldRec d + 40) 4 0).storeNum (foldRec d + 60) 2 0).setFstat d 0 3) s
  let n := s.grad.norm
  { s with grad := { s.grad with
      openStep := step + 1, logOpen := [], logPrev := [], descs := []
      norm := { n with own := none, partials := [], kappas := n.kappas.filter (fun k => k.1 ≤ step), timedOut := n.timedOut.filter (· ≤ step) } } }

/-- The local flip of a RESTORE (R255, R382 to R384), and its completion. -/
def State.restFlip (s : State) (r : Run) (x : RestoreSt) : State :=
  let recs := if r.fromPartner then (x.tables.getD []).map (·.record) else ((s.namedSnap x.snapId).map (·.records)).getD []
  let ok := r.restPairs.filter (fun p => !x.failed.contains p.1)
  let bad := r.restPairs.filter (fun p => x.failed.contains p.1)
  let table := ok.any (fun p => s.tableBad p.2)
  let s := ok.foldl (fun s (d, t) =>
    match recs.find? (·.desc == d) with
    | none => s
    | some e =>
      let w7 := nth 0#64 (wordsFrom e.words 0 8) 7
      let s := s.restAmax t e.stats
      let s := { s with fwd := s.fwd.filter (·.desc != t) }
      s.setWord7 .sq t (fun w => setFld (setFld (setBit (setBit w 63 (!bit w 63)) 62 true) 47 32 (fld w7 47 32)) 31 0 (fld w7 31 0))) s
  let s := bad.foldl (fun s (_, t) =>
    let y := s.desc t
    if !y.stamped || y.rows = 0 then s
    else s.setForward .sq t (unionRuns (((s.fwd.find? (·.desc == t)).map (·.runs)).getD []) [(0, y.rows - 1)]) none) s
  let s := { s with mem := s.mem.filter (fun e => !(0x24800000 ≤ e.1 && e.1 < 0x25800000))
                    badLines := s.badLines.filter (fun l => !(0x248000 ≤ l && l < 0x258000)) }
  let s := { s with tier := { s.tier with through := [] } }
  let s := if r.fld 20 1 % 2 = 1 then ((s.restGrad r.step).setF oCommitState 63 32 r.step).bindWaiting else s
  let unconf := x.tables.isNone
  let s := (s.setReg oRestoreStat (setBit (setFld (s.reg oRestoreStat) 63 32 r.step) 31 unconf)).count oRestoreStat 23 0 r.t.extra
  let s := if unconf then s.logFault ⟨0x16, false, 0, s.f oSnapCfg 63 56, some .sq, r.seq, 0xFFFF, 0, 0⟩ else s
  let s := { s with res := { s.res with restore := if unconf && s.partner.isSome then some { x with pend := [], waited := true } else none } }
  let code := if nth 0 r.info 1 != 0 then nth 0 r.info 1 else if r.t.check || table then 0x24 else if r.t.extra != 0 then 0x03 else 0x00
  (s.complete .sq r code [r.t.tiles, r.t.extra, (if unconf then 2 ^ 31 else 0) + sat16 bad.length, r.step]).settleHead .sq

/-- A RESTORE's flip at a beat boundary (R382). -/
def State.restDue (s : State) : State :=
  match s.run .sq, s.res.restore with
  | some r, some x => if r.opc = 0x43 && r.phase = 2 && nth 0 r.info 0 < s.beat then s.restFlip r x else s
  | _, _ => s

/-- An unconfirmed restore asks its partner for tables when it advertises again (R384). -/
def State.askTables (s : State) (src : Nat) : State :=
  match s.res.restore, s.partner with
  | some x, some p =>
    let running := match s.run .sq with | some r => r.opc = 0x43 | none => false
    if running || p != src || x.tables.isSome || !s.b oRestoreStat 31 then s
    else ({ s with res := { s.res with restore := some { x with src := p, asked := s.beat } } } : State).send (.digestReq p x.snapId x.first x.last)
  | _, _ => s

/-- The partner's tables compared with the local ones (R384): confirmed, or the first difference recorded. The restore stays unconfirmed where one of
the two has no table at all. -/
def State.restConfirm (s : State) : State :=
  match s.res.restore with
  | none => s
  | some x =>
    match x.tables, (s.run .sq).map (·.opc) with
    | some ts, opc =>
      if opc = some 0x43 || !s.b oRestoreStat 31 then s
      else
        let mine := match s.halfOf true true x.snapId with | some (_, y) => y.tablesOf x.first x.last | none => []
        if mine.isEmpty || ts.isEmpty then s
        else
          let row := fun (l : List DigestTable) (d : Nat) => ((l.find? (·.record.desc == d)).map (·.digests)).getD []
          let diff := ((mine ++ ts).map (·.record.desc)).eraseDups.findSome? (fun d =>
            ((List.range (max (row mine d).length (row ts d).length)).find? (fun i => nth none (row mine d) i != nth none (row ts d) i)).map
              (fun i => (d, i)))
          let s := { s with res := { s.res with restore := none } }
          match diff with
          | none => s.setB oRestoreStat 31 false
          | some (d, t) => (s.setB oRestoreStat 30 true).logFault ⟨0x16, false, 0, x.src, none, 0, d, t, 0⟩
    | none, _ => s

end Sys2Proof.Machine
end

