-- ==== Sys2Proof/Machine/Complete.lean ====
section
/-! DEFINITION. What the streams of a command work on, the completion of a tile (R236), whatever command it belongs to, and the replays of
Amber verification (R369). -/
namespace Sys2Proof.Machine

/-! The work of a stream group -/

/-- What the streams of a command work on (R235, R241): the rings' name of its descriptor and of its next tile, what its producers read, its
group, which tiles of a ring a gate lets through, and what a tile is called. -/
structure StreamWork where
  desc  : Nat
  tile  : Nat
  feed  : Feed
  group : List GRing
  gate  : GRing → Nat → Bool
  name  : Nat → TileId

/-- The work of a sweep at its latched descriptor. A sweep's writes alone wait on the readers of its bank (R20, R241). -/
def State.sweepWork (s : State) (r : Run) (d : Desc) : Option StreamWork :=
  let t := s.fab.resident
  let v := s.variantOf d
  let gate := fun (segs : Nat → List (Nat × Nat)) (x : GRing) (k : Nat) =>
    !x.out || s.bankFree r.desc d.umber (((segs k).map (fun g => g.1 / 8192)).foldl max 0)
  if r.opc = 0x30 then
    some ⟨r.desc, r.tile, s.sweepFeed t v d r.step d.tiles (denseSegs d), sweepGroup t v d, gate (denseSegs d), fun k => ⟨r.desc, k⟩⟩
  else if r.phase = 0 then none
  else if r.phase < 3 then
    let rows := if r.phase = 1 then r.copy else r.behind
    some ⟨r.desc, r.tile, { tiles := sparseTiles d.pitch (runRows rows), reads := fun _ k => (sparseSegs d rows k).flatMap (copyRanges t v d d.role) },
      copyGroup t v d, gate (sparseSegs d rows), fun k => ⟨r.desc, k⟩⟩
  else
    some ⟨r.desc, r.tile, s.sweepFeed t v d r.step (sparseTiles d.pitch (runRows r.rows)) (sparseSegs d r.rows), sweepGroup t v d,
      gate (sparseSegs d r.rows), fun k => ⟨r.desc, k⟩⟩

/-- The work of a MATRIX at its latched home, under the bit-stream that it runs with (R164). -/
def State.matrixWork (s : State) (r : Run) (d : Desc) : Option StreamWork :=
  let s := match s.fab.mxHeld with
    | some t => { s with fab := { s.fab with resident := t } }
    | none => s
  (s.fab.resident.prog? (r.fld 12 1)).map (fun m =>
    ⟨r.desc, r.tile, s.mxFeed r m d, s.mxGroup r m d, fun x _ => !x.out || m.kind = 5 || s.bankFree r.desc d.umber (d.tiles - 1),
      fun k => ⟨r.desc, k⟩⟩)

/-- The work of a round's command at its next entry (R293). -/
def State.emitWork (s : State) (r : Run) : Option StreamWork :=
  match (localEntries s.cyan.boundMap s.me (r.opc = 0x40)).find? (fun i => r.desc ≤ i), s.cyan.bound with
  | some entry, some (_, _, bs) =>
    let e := mapEntry s.cyan.boundMap entry
    let (d, bank) := s.entrySrc bs e
    let ts := e.routes d
    if r.rows.isEmpty then some ⟨entry, r.tile, s.emitFeed e d bank, s.emitGroup e d, fun _ _ => true, fun k => ⟨e.desc, nth 0 ts k⟩⟩ else none
  | _, _ => none

/-- What the streams of a running command work on; none for a command without streams, or one that has not latched its descriptor. -/
def State.streamWork (s : State) (r : Run) : Option StreamWork :=
  if r.issued || r.aborting then none
  else if r.opc = 0x40 || r.opc = 0x41 then s.emitWork r
  else if r.opc = 0x22 then
    match r.rows with
    | (x, _) :: _ => if r.phase = 1 then some ⟨x, 0, { tiles := 1, reads := fun _ _ => s.scanReads r.step (s.desc x) }, closeGroup, fun _ _ => true, fun _ => ⟨x, 0⟩⟩ else none
    | [] => none
  else if r.opc = 0x44 || r.opc = 0x45 then
    some ⟨r.desc, r.tile, r.stashFeed r.desc r.tile, r.stashGroup r.desc r.tile, fun _ _ => true, fun k => ⟨r.desc, k⟩⟩
  else match r.latched with
    | none => none
    | some ws =>
      let d := s.latchedDesc (if r.opc = 0x43 then r.fld 16 2 + (r.desc - r.fld 12 2) else r.desc) ws
      if r.opc = 0x30 || r.opc = 0x31 then s.sweepWork r d
      else if r.opc = 0x32 then s.matrixWork r d
      else if r.opc = 0x20 || r.opc = 0x21 then
        let ts := r.foldTiles d
        some ⟨r.desc, r.tile, s.foldFeed r d r.phase, foldGroup, fun _ k => s.foldFree r.desc (nth 0 ts k), fun k => ⟨r.desc, nth 0 ts k⟩⟩
      else
        let name := fun k => (⟨r.desc, k⟩ : TileId)
        if r.opc = 0x10 || r.opc = 0x11 then
          some ⟨r.desc, r.tile, s.gatherFeed (if r.bound then r else s.gatherBind r) d, s.gatherGroup r d, fun _ _ => true, name⟩
        else if r.opc = 0x42 then
          some ⟨r.desc, r.tile, { tiles := d.tiles, reads := fun _ k => s.snapReads r d k }, s.snapGroup r d, fun _ _ => true, name⟩
        else if r.opc = 0x43 then
          some ⟨r.desc, r.tile, { tiles := d.tiles, reads := fun _ _ => [] }, s.restGroup r d, fun x k => !x.out || s.bankFree d.idx d.umber k, name⟩
        else if r.opc = 0x47 then
          some ⟨r.desc, r.tile, s.slateFeed (if r.bound then r else s.slateBind r) d, s.slateGroup r d, fun _ _ => !s.slateBound, name⟩
        else none

/-- The last descriptor of a command that takes its descriptors in ascending order. -/
def Run.lastDesc (r : Run) : Option Nat :=
  if r.opc = 0x10 || r.opc = 0x11 then some r.gatherLast
  else if r.opc = 0x20 || r.opc = 0x21 then some r.foldLast
  else if r.opc = 0x30 || r.opc = 0x42 || r.opc = 0x43 then some (r.fld 14 2)
  else if r.opc = 0x31 then some (r.fld 12 2)
  else if r.opc = 0x32 then some (r.fld 16 2)
  else if r.opc = 0x47 then some (r.fld 10 2)
  else none

/-- A command as it will stand at its next descriptor, whose tiles its producers may read already (R240). None where the table refuses that
descriptor (R173), or an APPLY has changed its variant (R134). -/
def State.aheadRun (s : State) (r : Run) : Option Run :=
  let x : Run := match r.latched with
    | none => r
    | some ws => if r.opc = 0x20 || r.opc = 0x21 then r.foldNext (s.latchedDesc r.desc ws) else { r with desc := r.desc + 1, tile := 0 }
  let i := if r.opc = 0x43 then r.fld 16 2 + (x.desc - r.fld 12 2) else x.desc
  match r.lastDesc with
  | some l =>
    if r.aborting || r.issued || l < x.desc || s.fab.loading.contains (s.desc i).variant || s.descCheck i != 0 then none
    else some { x with latched := some (s.descWords i), issued := false }
  | none => none

/-- The next command of UQ, once the running one has no more descriptors to take up (R240): an UPDATE that follows a sweep with the same variant, or a MATRIX
that follows one with the same program, and that its evaluation would let pass. None where it takes up a descriptor that the running command has in
hand. -/
def State.nextRun (s : State) (r : Run) : Option Run :=
  let seq := (r.seq + 1) % 2 ^ 32
  let opc := leAt (s.record .uq seq) 0 1
  let sweep := opc = 0x30 && (r.opc = 0x30 || r.opc = 0x31)
  let last := r.lastDesc.getD 0
  if s.posted .uq = r.seq || !(sweep || (opc = 0x32 && r.opc = 0x32)) || !(r.issued || r.desc = last) || r.aborting then none
  else
    let t := (s.setRun .uq none).setF (oQDoneSeq (qIdx .uq)) 31 0 r.seq
    match (t.serve .uq opc (if sweep then State.updateEval else State.matrixEval) (fun s _ => s)).run .uq with
    | some x =>
      let same := if sweep then (s.desc x.desc).variant = (s.desc last).variant else x.fld 12 1 = r.fld 12 1
      if x.seq = seq && same && last < x.desc then some x else none
    | none => none

/-- What a command's streams work on in turn (R240): its descriptor at hand, the next one, and the first one of the next command; each with the SEQ of
its command. -/
def State.streamWorks (s : State) (q : Queue) (r : Run) : List (Nat × StreamWork) :=
  let of := fun (x : Option Run) => ((x.bind (fun a => (s.streamWork a).map (fun w => (a.seq, w)))).toList)
  of (some r) ++ of (s.aheadRun r) ++ (if q = .uq then of ((s.nextRun r).bind s.aheadRun) else [])

/-- What a command's streams work on next: what they have in hand, or the descriptor whose first tile has not issued. -/
def State.nextWork (s : State) (r : Run) : Option StreamWork := (s.streamWork r).orElse (fun _ => (s.aheadRun r).bind s.streamWork)

/-- The tiles beyond the last one that a ring of some work has claimed: the next that its producer takes. -/
def State.nextClaim (s : State) (w : StreamWork) (x : GRing) : Nat :=
  (((s.ring x.ring).entries.filter (·.desc == w.desc)).map (fun e => e.first + e.count)).foldl max w.tile

/-- The pages that a producer needs for the tiles at hand and for the next n entries beyond TAIL, from one descriptor into the next (R239). -/
def State.ringPages (s : State) (ring : Nat) : List (Nat × StreamWork) → Nat → List Nat
  | [], _ => []
  | (_, w) :: t, n =>
    match w.group.find? (fun x => x.ring = ring && !x.out) with
    | none => []
    | some x =>
      let next := s.nextClaim w x
      let last := min w.feed.tiles (next + n * x.cap)
      let left := n - cdiv (w.feed.tiles - next) (max 1 x.cap)
      s.pagesOf ((List.range (last - w.tile)).flatMap (fun i => w.feed.reads ring (w.tile + i))) ++
        (if left = 0 then [] else s.ringPages ring t left)

/-- The pages that the producers of a command need now and ahead (R239), each with the ring of its producer. -/
def State.workPages (s : State) (q : Queue) (r : Run) : List (Nat × Nat) :=
  let ws := s.streamWorks q r
  match ws with
  | [] => []
  | (_, w) :: _ => ((w.group.filter (fun x => !x.out)).map (·.ring)).flatMap (fun k =>
      (s.ringPages k ws (2 * (s.ring k).depth)).map (fun i => (i, k)))

/-- The producers of a command ask for the pages that they need ahead (R239), unless they are stopped. -/
def State.reachAhead (s : State) (q : Queue) : State :=
  if s.f oTierMap 22 0 = 0 || s.stops.any (·.q == q) then s
  else match s.run q with
    | some r => ((s.workPages q r).filter (fun x => (s.ring x.2).user = userId q r.seq)).foldl (fun s x => s.request x.1 (qIdx q) x.2) s
    | none => s

/-- How a command with tiles completes, by its opcode. -/
def State.endRun (s : State) (r : Run) : State :=
  if r.opc = 0x30 || r.opc = 0x31 then s.sweepEnd r
  else if r.opc = 0x32 then s.matrixEnd r
  else if r.opc = 0x20 || r.opc = 0x21 then s.foldEnd r
  else if r.opc = 0x22 then s.closeEnd r
  else if r.opc = 0x10 || r.opc = 0x11 then s.gatherEnd r
  else if r.opc = 0x40 || r.opc = 0x41 then s.emitEnd r
  else if r.opc = 0x42 then s.snapEnd r
  else if r.opc = 0x43 then s.restEnd r
  else if r.opc = 0x47 then s.slateEnd r
  else s.stashEnd r

/-- A command with tiles carried on, by its opcode. -/
def State.goRun (s : State) (q : Queue) (r : Run) : State :=
  if r.opc = 0x30 || r.opc = 0x31 then s.sweepGo r
  else if r.opc = 0x32 then s.matrixGo r
  else if r.opc = 0x20 || r.opc = 0x21 then s.foldGo r
  else if r.opc = 0x22 then s.closeGo r
  else if r.opc = 0x10 || r.opc = 0x11 then s.gatherGo r
  else if r.opc = 0x40 || r.opc = 0x41 then s.emitGo r
  else if r.opc = 0x42 then s.snapGo r
  else if r.opc = 0x43 then s.restGo r
  else if r.opc = 0x47 then s.slateGo r
  else if r.opc = 0x44 || r.opc = 0x45 then s.stashGo r
  else if r.opc = 0x01 then s.barrierGo q r
  else if r.opc = 0x33 then s.commitGo r
  else if r.opc = 0x46 then s.hintGo r
  else if r.opc = 0x4F then s.fenceGo r
  else s

/-- An effect computed under the bit-stream that its work started with, where another has become resident since (R134, R164). -/
def State.underOld (s : State) (r : Run) (j : Job) (f : State → State × Run) : State × Run :=
  let old := if r.opc = 0x32 then s.fab.mxHeld
    else if (r.opc = 0x30 || r.opc = 0x31) && s.fab.loading.contains (descOf j.desc j.words).variant then some s.fab.prev
    else none
  match old with
  | some t =>
    let (s', r') := f { s with fab := { s.fab with resident := t } }
    ({ s' with fab := { s'.fab with resident := s.fab.resident } }, r')
  | none => f s

/-- The work of a tile, by its command's opcode; RESTORE has its own. -/
def State.tileWork (s : State) (r : Run) (j : Job) : State × Run :=
  if r.opc = 0x30 || r.opc = 0x31 then s.sweepComplete r j
  else if r.opc = 0x32 then s.matrixComplete r j
  else if r.opc = 0x20 || r.opc = 0x21 then s.foldComplete r j
  else if r.opc = 0x22 then s.closeComplete r j
  else if r.opc = 0x10 || r.opc = 0x11 then s.gatherComplete r j
  else if r.opc = 0x40 || r.opc = 0x41 then s.emitComplete r j
  else if r.opc = 0x42 then s.snapComplete r j
  else if r.opc = 0x44 then s.putComplete r j
  else if r.opc = 0x45 then s.getComplete r j
  else s.slateComplete r j

/-- The descriptor that a job works on: of a RESTORE, the target. -/
def Run.jobDesc (r : Run) (j : Job) : Nat := if r.opc = 0x43 then r.fld 16 2 + (j.desc - r.fld 12 2) else j.desc

/-- The stream group of a tile in flight (R230, R245). -/
def State.groupOf (s : State) (r : Run) (j : Job) : List GRing :=
  let t := s.fab.resident
  let d := s.latchedDesc (r.jobDesc j) j.words
  if r.opc = 0x30 || (r.opc = 0x31 && j.kind = 0) then sweepGroup t (s.variantOf d) d
  else if r.opc = 0x31 then copyGroup t (s.variantOf d) d
  else if r.opc = 0x32 then ((t.prog? (r.fld 12 1)).map (s.mxGroup r · d)).getD []
  else if r.opc = 0x20 || r.opc = 0x21 then foldGroup
  else if r.opc = 0x22 then closeGroup
  else if r.opc = 0x10 || r.opc = 0x11 then s.gatherGroup r d
  else if r.opc = 0x40 || r.opc = 0x41 then
    (match s.cyan.bound with
     | some (_, _, bs) => let e := mapEntry s.cyan.boundMap j.desc; s.emitGroup e (s.entrySrc bs e).1
     | none => [])
  else if r.opc = 0x42 then s.snapGroup r d
  else if r.opc = 0x43 then s.restGroup r d
  else if r.opc = 0x47 then s.slateGroup r d
  else r.stashGroup j.desc j.tile

/-- The work of a tile, and its ring entries (R236); in the ring to a mirror the tile waits for the partner. -/
def State.tileDo (r : Run) (j : Job) (s : State) : State × Run :=
  let s := s.doneAll j.desc j.tile ((s.groupOf r j).filter (fun x => !(r.opc = 0x42 && x.ring = svc 118)))
  s.tileWork r j

/-- The role of a descriptor whose array holds an address, stamps with W; 6 is Slate, 7 anything else. -/
def roleAt (t : Tvd) (v : Variant) (d : Desc) (a : Nat) : Nat :=
  let within := fun (x : Nat × Nat) => x.1 ≤ a && a < x.1 + x.2
  let holds := fun role => [0, 1].any (fun bank =>
    within (roleAddr t v d role bank, roundUp (roleElemBytes t v d role) 256 + roleScaleBytes t v d role))
  match (bankedRoles.filter d.has).find? holds with
  | some role => role
  | none =>
    if d.stamped && (within (stampAddr d 0, 2 * d.rows) || within (stampAddr d 1, 2 * d.rows)) then 0
    else if d.slate && within (slateAddr d, 2 * d.positions) then 6
    else 7

/-- The digests of what a tile has written, one for each role (R369). -/
def State.writeDigests (s : State) (d : Desc) (ws : List (Nat × Nat)) : List (BitVec 32) :=
  let role := fun (x : Nat × Nat) => roleAt s.fab.resident (s.variantOf d) d x.1
  ((ws.map role).eraseDups).map (fun k => crc32c ((ws.filter (fun x => role x = k)).flatMap (fun (a, n) => s.bytes a n)))

/-- A tile that has left flight: its pages let go but for those that its streams still need, the write log, the command put back or
completed. -/
def State.tileOut (s : State) (q : Queue) (r : Run) (j : Job) : State :=
  let s := if j.pages.isEmpty then s else s.letGo j (s.workPages q r)
  let s := if j.writes.isEmpty || j.fault != 0 then s
    else s.logWrite (.tile r j (s.writeDigests (descOf (r.jobDesc j) j.words) j.writes))
  let s := if r.opc = 0x42 then s.mirrorSettle else s
  ((s.keepOrEnd q r State.endRun).settleHead q).reachAhead q

/-- The oldest tile of a queue's command completes (R236). A tile that waits for data of its own stays: a page whose frame was given
up (R358), a unit read through (R332), a tile on its way from the partner (R381). -/
def State.tileGo (s : State) (q : Queue) : State :=
  match s.run q with
  | none => s
  | some r =>
    match s.jobs.find? (fun j => j.q = q && j.seq = r.seq) with
    | none => s
    | some j =>
      if s.unitWait r then s
      else if j.fault = 0 && j.pages.any (fun i => !(s.page i).served) then s
      else if r.opc = 0x43 then
        let (t, r', stays) := s.restComplete r j
        if stays then t.setRun q (some r')
        else ((({ t with jobs := t.jobs.erase j } : State).doneAll j.desc j.tile (t.groupOf r j))).tileOut q r' j
      else
        let (s, pg) := if r.opc = 0x42 && j.fault = 0 then s.throughGo (s.snapReads r (s.latchedDesc j.desc j.words) j.tile)
          else (s, .go)
        match pg with
        | .wait => s
        | .absent f =>
          let j' := { j with fault := f }
          let (s, r) := ({ s with jobs := s.jobs.erase j } : State).underOld r j' (State.tileDo r j')
          s.tileOut q r j'
        | .go =>
          let (s, r) := ({ s with jobs := s.jobs.erase j } : State).underOld r j (State.tileDo r j)
          s.tileOut q r j

/-- Snapshot bytes for a tile that the partner has sent (R378, R381). -/
def State.tileAnswer (s : State) (src id : Nat) (t : TileId) (data : Option (List Byte)) : State :=
  let run := match s.run .sq, s.res.restore with
    | some r, some x => if r.opc = 0x43 && x.src = src && x.snapId = id && x.pend.contains t then some r else none
    | _, _ => none
  match run with
  | some r =>
    match s.jobs.find? (fun j => j.q = .sq && j.seq = r.seq && j.desc = t.desc && j.tile = t.tile) with
    | some j =>
      let (s, r) := (({ s with jobs := s.jobs.erase j } : State).doneAll j.desc j.tile (s.groupOf r j)).restFetched r j data
      s.tileOut .sq r j
    | none => s
  | none => if s.partner = some src then s.repairTile id t data else s

/-! Amber replays -/

/-- The tallies of a logged tile's command changed, if it still runs (R82). -/
def State.tallyOf (s : State) (run : Run) (job : Job) (f : Tally → Tally) : State :=
  match s.run job.q with
  | some r => if r.seq = run.seq then s.setRun job.q (some { r with t := f r.t }) else s
  | none => s

/-- A logged tile was written to a bank that a flip of the episode has made Ivory since (R57, R368): the bank is not written again. -/
def State.nowIvory (s : State) (run : Run) (job : Job) : Bool :=
  [0x30, 0x31, 0x32, 0x43].contains run.opc && (descOf 0 job.words).role != (s.desc (run.jobDesc job)).role

/-- An entry of the write log replayed (R369): data only. A fold has nothing to be computed from again, and its descriptor is marked
failed; a tile whose source cannot be read stays as it is, and its descriptor is held. Word 7 and a table are rewritten from the
sequencer's copy, which is what memory holds here, and their line is sound again (DEDUCED, assumption log 31). -/
def State.replayWrite (s : State) : LogWrite → State
  | .word7 d _ => s.unmark [(64 * d + 56, 8)]
  | .table a n _ => s.unmark [(a, n)]
  | .tile run job _ =>
    if run.opc = 0x20 || run.opc = 0x21 then (s.foldFail job.desc).tallyOf run job (fun t => { t with check := true })
    else if s.nowIvory run job then
      (job.writes.filter (fun (a, n) => s.lineBad a n)).foldl (fun s (a, n) =>
        s.lineFault (some job.q) run.seq (run.jobDesc job) job.tile 0x24 (s.badAddr a n)) s
    else
      let run' := { run with t := Tally.zero }
      let (t, r') : State × Run :=
        if run.opc = 0x43 then let (t, r', _) := (s.unmark job.writes).restComplete run' job; (t, r') else (s.unmark job.writes).tileWork run' job
      if r'.t.check || r'.t.poison || r'.t.timeout then
        let s := if 0x30 ≤ run.opc && run.opc ≤ 0x32 then (s.holdDesc run.step job.desc false).1 else s
        s.tallyOf run job (fun t => { t with check := true })
      else
        (((s.unmark job.writes).takeData t job.writes).life 7 1).tallyOf run job
          (fun t => { t with recovered := true, replayed := t.replayed + 1 })

end Sys2Proof.Machine
end

