-- ==== Sys2Proof/Machine/Stage.lean ====
section
/-! DEFINITION. Staging (R62 to R69, R458, R459, R462, R464): STAGE_CTL, APPLY and what it changes (R21, R26, R128, R134, R164, R166,
R285, R287, R309, R350, R431, R435, R466), group readiness, the growth rule of R52; and the wrapper under which the engine's commands run,
which first lets a flip or an APPLY that is due take effect (R69). -/
namespace Sys2Proof.Machine

/-- STAGE_RESULT.STATE (R64). -/
def State.stageState (s : State) : Nat := s.f oStageResult 3 0

/-- A register word with the ST fields of another (R458). -/
def mergeSt (o : Nat) (fields others : Word) : Word := (fields &&& stMask o) ||| (others &&& ~~~(stMask o))

/-- The staged registers that are not at zero in both copies. -/
def State.stKeys (s : State) : List Nat := (((s.live ++ s.staged).map (·.1)).filter isStaged).eraseDups

/-- An ST write or a LOAD has changed the staged set (R64, R459). -/
def State.stChanged (s : State) : State :=
  let st := s.stageState
  if st = 1 then { s with stage := { s.stage with dirty := true } }
  else if st = 2 ∨ st = 3 ∨ st = 5 then s.setF oStageResult 3 0 0
  else s

/-- An ST write (R67, R458): dropped in state 4. -/
def State.stWrite (s : State) (o : Nat) (w : Word) : State :=
  if s.stageState = 4 then s.setB oStageResult 7 true else (s.setStg o (mergeSt o w (s.stg o))).stChanged

/-- LOAD (R62, R64): every live value into its staged copy. -/
def State.load (s : State) : State :=
  if s.stageState = 4 then s
  else (s.stKeys.foldl (fun s o => s.setStg o (mergeSt o (s.reg o) (s.stg o))) s).stChanged

/-- CHECK started (R50, R64). -/
def State.checkStart (s : State) : State :=
  if s.stageState = 0 ∨ s.stageState = 5 then
    { s.setF oStageResult 3 0 1 with stage := { s.stage with snap := s.staged, dirty := false } }
  else s

/-- APPLY armed (R64, R65). -/
def State.arm (s : State) : State :=
  if s.stageState ≠ 2 then s
  else
    let scope := s.b oStageCtl 6
    let g := s.f oStageApplyBeat 47 0
    if !scope && g ≠ 0 && g ≤ s.beat then s.setF oStageResult 15 8 0x2F
    else { s.setF oStageResult 3 0 3 with stage := { s.stage with armScope := scope, armG := if g = 0 then s.beat + 1 else g, groupAt := none, missed := false } }

/-- A write of STAGE_CTL (R62, R64, R67, R443, R462): VIEW and SCOPE first, then LOAD, CANCEL, CHECK, APPLY. -/
def State.stageCtl (s : State) (w : Word) : State :=
  let s := s.setF oStageCtl 7 6 (fld w 7 6)
  let on := s.alive
  let s := if bit w 3 && on then s.load else s
  let s := if bit w 2 && s.stageState = 3 then s.setF oStageResult 3 0 2 else s
  let s := if bit w 0 && on then s.checkStart else s
  if bit w 1 && on then s.arm else s

/-- A write of CTL (R463). -/
def State.ctlWrite (s : State) (w : Word) : State := (s.setF oCtl 63 32 (fld w 63 32)).setB oCtl 0 (bit w 0)

/-! APPLY -/

/-- The ring that a stream entry sets up (R231, R238). -/
def StreamE.ring (e : StreamE) : Ring := Ring.fresh e.slots e.rsv e.slotLog2

/-- A variant changes between two bit-streams (R164): its section, the set of its stream entries, or a matrix program that feeds it. -/
def variantChanges (a b : Tvd) (v : Nat) : Bool :=
  let ss := fun (t : Tvd) => t.streams.filter (fun e => e.variant == some v)
  let ps := fun (t : Tvd) => ((List.range 8).filterMap (fun n => t.inProg v n)).map (fun k => (k, t.prog? k))
  let same := fun (x y : List StreamE) => x.all y.contains && y.all x.contains
  a.variant? v != b.variant? v || !same (ss a) (ss b) || ps a != ps b

/-- The mask of some small numbers. -/
def bitsOf (ns : List Nat) : Nat := ns.foldl (fun m n => m ||| 2 ^ n) 0

/-- The rings of the stream entries that some condition selects set up anew; an engine that no entry names any more is unused. -/
def State.setRings (s : State) (sel : Nat → Bool) : State :=
  (List.range 24).foldl (fun s k =>
    if sel k then s.setRing k (match s.fab.resident.streams.find? (·.engine == k) with | some e => e.ring | none => Ring.unused)
    else s) s

/-- The engines of a bit-stream's entries that belong to one of some variants. -/
def enginesOf (t : Tvd) (vs : List Nat) : List Nat :=
  (t.streams.filter (fun e => match e.variant with | some v => vs.contains v | none => false)).map (·.engine)

/-- A bit-stream made resident (R134, R164, R166): changed variants drain and load; the other entries' rings are set up at once. -/
def State.fabApply (s : State) (t : Tvd) : State :=
  let old := s.fab.resident
  let ch := (List.range 4).filter (variantChanges old t)
  let later := enginesOf old ch ++ enginesOf t ch
  let same := fun k => old.streams.find? (·.engine == k) == t.streams.find? (·.engine == k)
  let mxRuns := match s.run .uq with | some r => r.opc == 0x32 | none => false
  let held := if mxRuns then some (s.fab.mxHeld.getD old) else none
  let prev := if s.fab.loading.isEmpty then old else s.fab.prev
  let load := (s.fab.loading ++ ch).eraseDups
  let s := { s with fab := { s.fab with resident := t, prev := prev, mxHeld := held, loading := load } }
  let s := s.setRings (fun k => !later.contains k && !same k)
  (s.upd oTvdStat (fun w => setFld (setFld (setFld (setBit w 1 (!s.fab.loading.isEmpty)) 23 16 (bitsOf (t.programs.map (·.program))))
    11 8 (bitsOf (t.variants.map (·.num)))) 7 4 (bitsOf ch))).setReg oTvdBuild t.buildId

/-- The tier settings after an APPLY (R328, R350): removed pages and their units leave, pages that come in with units that the flash holds are
FLASH, the frame pool follows FIXED. -/
def State.tierApply (s : State) (oldMap : Word) : State :=
  if oldMap = s.reg oTierMap then s
  else
    let n := s.f oTierMap 22 0
    let old := fld oldMap 22 0
    let s := (s.tier.pages.filter (fun e => n ≤ e.1 && e.2.frame.isSome)).foldl (fun s e => s.clearPage e.1) s
    let new := ((s.tier.units.map (fun e => e.1 / 128)).filter (fun i => old ≤ i && i < n)).eraseDups
    let s := new.foldl (fun s i => s.setPage i { s.page i with st := .flash }) s
    let pages := s.tier.pages.filter (fun e => e.1 < n || old ≤ e.1)
    let used := pages.filterMap (fun e => e.2.frame)
    let frames := (List.range (s.f oTierStat 63 47 - s.f oTierMap 48 32)).filter (fun k => !used.contains k)
    { s with tier := { s.tier with
        pages := pages, free := frames
        units := s.tier.units.filter (fun e => e.1 < 128 * n || 128 * old ≤ e.1)
        waits := s.tier.waits.filter (fun w => w.page < n) } }

/-- The stash after an APPLY (R309): a new place clears VALID of every index entry; its tier pages are asked for, and none of them leaves its
frame. -/
def State.stashApply (s : State) (old : Word) : State :=
  if old = s.reg oStashRegion then s
  else
    let s := { s with mem := s.mem.map (fun (e : Host.Cell) =>
      if 0x2B010000 ≤ e.1 && e.1 < 0x2B810000 && e.1 % 16 = 7 then (e.1, e.2 &&& 0x7F#8) else e) }
    let (a, n) := s.stashRegion
    let is := (s.pagesOf [(a, n)]).filter (fun i => (s.page i).st != .resident)
    let s := is.foldl (fun s i => s.request i 7 0) s
    s.unwait 7 (is.filter (fun i => (s.page i).st = .resident))

/-- A port out of use, with the frames that it kept (R374, R411, R412). -/
def State.portOff (s : State) (p txen : Nat) : State :=
  let lost := (s.port p).keep.filterMap (·.msg)
  (((s.setPort p { PortSt.down with txen := txen }).setB (oPlStat p) 0 false).mirrorCut lost).mirrorHeard

/-- Peer ports that PL_CFG.ENABLE no longer names are out of use (R412). -/
def State.portsApply (s : State) : State :=
  (List.range 8).foldl (fun s p =>
    if s.b oPlCfg p || !s.portUp p then s
    else (s.portOff p 0).setReg (oPlStat p) 0xF000#64) s

/-- The accepted temperature held against THERM_CRIT (R436, R439): at or above it, issue stops. -/
def State.critNow (s : State) : State :=
  match s.pin.temp with
  | none => s
  | some c =>
    let crit := s.f oPwrCfg 57 48 ≤ c
    let s := s.setB oPwrStat 4 crit
    if crit then { s.setB oPwrStat 1 true with pin := { s.pin with hotStop := true } } else s

/-- The recovery from a lane error is under way (R136): its spare is being loaded, or a tile that it replays has not completed. -/
def State.recovering (s : State) : Bool :=
  s.fab.laneLoad || s.jobs.any (fun j => j.again && (match s.run j.q with | some r => needsFabric r.opc | none => false))

/-- L_RUN and ROWS_RUN apart from thermal action (R113, R431). L does not change during the recovery from a lane error (R136). -/
def State.widths (s : State) : State :=
  let l := min s.stage.inForce.lanes (s.f oFabStat 23 12)
  let r := min s.stage.inForce.rows (s.f oMxStat 23 12)
  let hot := s.b oPwrStat 3
  let l := if hot then min l (s.f oPwrStat 43 32) else l
  let r := if hot then min r (s.f oPwrStat 31 24) else r
  let l := if s.recovering then s.f oPwrStat 43 32 else l
  let s := (s.setF oPwrStat 43 32 l).setF oPwrStat 31 24 r
  { s with fab := { s.fab with curL := l } }

/-- The staged set made live (R21, R26, R65, R69, R166, R285, R287, R431, R435, R466). -/
def State.applyGo (s : State) (group : Bool) : State :=
  let old := s
  let s := (s.stKeys.filter (· != oBeatCfg)).foldl (fun s o => s.setReg o (mergeSt o (s.stg o) (s.reg o))) s
  -- R22: the roles stay while a round to the buffer becoming readable is in flight
  let s := if s.cyanRead != old.cyanRead && old.roundTo s.cyanRead then s.setF oProfileWork 17 16 (old.f oProfileWork 17 16) else s
  -- R26: the master fixes the length for the domain
  let len := fld (s.stg oBeatCfg) 6 0
  let coming := (s.peer.newLen.getLast?.map (·.1)).getD (s.f oBeatCfg 6 0)
  let s := if s.b oBeatCfg 16 && len ≠ coming then { s with peer := { s.peer with newLen := s.peer.newLen ++ [(len, s.beat + 2)] } } else s
  let s := s.setF oPowerBudget 8 0 (s.f oProfileWork 8 0)
  let c := s.stage.chk
  let s := { s with stage := { s.stage with inForce := c } }
  let s := ((s.setF oPwrStat 63 52 c.lanes).setF oPwrStat 51 44 c.rows).widths
  let s := match s.stage.fileCopy with
    | some t => if s.f oTvdLen 16 0 = 0 then s.setF oTvdStat 7 4 0
      else (s.store 0x34810000 (s.bytes 0x34800000 (s.f oTvdLen 16 0))).fabApply t
    | none => s.setF oTvdStat 7 4 0
  let n : Nat := s.f oLayoutLen 20 0
  let s := if n = 0 then s
    else
      let m := s.bytes 0x2A000000 n
      (s.store 0x2A200000 m).setF oLayoutCheck 63 48 (mapId m)
  let geom := old.reg oCyanBase ≠ s.reg oCyanBase ∨ old.f oCyanGeom 15 0 ≠ s.f oCyanGeom 15 0
  let s := if geom then (s.setF oCyanStata 15 12 0).setF oCyanStatb 15 12 0 else s
  let s := s.cyanSwitch.portsApply
  let s := (s.tierApply (old.reg oTierMap)).stashApply (old.reg oStashRegion)
  let s := if !old.b oScrubCfg 0 && s.b oScrubCfg 0 then { s with res := { s.res with scrubAt := s.beat } } else s
  let s := if old.reg oFabSeed ≠ s.reg oFabSeed then { s with fab := { s.fab with genSeed := s.reg oFabSeed } } else s
  let s := [Queue.gq, .aq, .uq, .sq].foldl (fun s q => match s.run q with
    | some r => if s.shareOf q = 0 then s.setRun q (some { r with best := true }) else s
    | none => s) s
  let feeds := match s.partner.bind s.advertOf with | some m => m.live.feed == s.f oSnapCfg 3 0 | none => false
  let s := s.setB oStat 55 (s.b oSnapCfg 55 && s.b oSnapCfg 54 && feeds)
  let s := if group then s.setB oStat 57 false else s
  s.critNow.upd oStageResult (fun w => setFld (setFld (setFld w 63 16 s.beat) 15 8 0) 3 0 5)

/-- A local APPLY is due (R65). -/
def State.applyDue (s : State) : Bool := s.alive && s.stageState = 3 && !s.stage.armScope && s.stage.armG ≤ s.beat

/-- A group APPLY is due (R66). -/
def State.groupDue (s : State) : Bool :=
  s.alive && s.stageState = 4 && (match s.stage.groupAt with | some g => g ≤ s.beat | none => false)

/-- What is due before a command acts: the flip of the boundary just passed first, then APPLY (R69), and the end of commands that stand ahead of a
DISCARD with ABORT_AHEAD (R80). -/
def State.settle (s : State) : State :=
  let s := if s.flipDue then s.flip else s
  let s := if s.applyDue then s.applyGo false else if s.groupDue then s.applyGo true else s
  if s.abortDue then s.abortCleared else s

/-! Readiness -/

/-- The flags of every member of the staged group, sent at the present boundary, are set (R66): the group applies at the next. -/
def State.noteReady (s : State) : State :=
  let mates := s.stagedMates (fld (s.stg oCommitGroup) 39 32)
  if s.stageState = 4 && s.stage.groupAt.isNone && mates.length = fld (s.stg oCommitGroup) 47 40 &&
      mates.all (fun m => m.ready && m.beat = s.beat) then
    { s with stage := { s.stage with groupAt := some (s.beat + 1) } }
  else s

/-- Back in state 2 with FAULT_PEER_LOST (R68, R354): `unit` is the member that was not heard, `diverged` says that the AND was missed. -/
def State.readyLost (s : State) (unit : Nat) (diverged : Bool) : State :=
  let s := if diverged then s.setB oStat 57 true else s
  (s.upd oStageResult (fun w => setFld (setFld w 15 8 0x22) 3 0 2)).peerLost none 0 unit

/-- The boundary as group readiness sees it (R66, R68); `s.beat` is the beat that ends. This member's own beat sync failed at it when the
member is not locked, or when none of the other members' messages came: the member has missed the AND. Where some of them alone are missing,
whether the AND was set shows later (DEDUCED, assumption log 18). -/
def State.noteMissed (s : State) : State :=
  if s.stageState ≠ 4 ∨ s.stage.groupAt.isSome then s
  else
    let others := s.stagedMates (fld (s.stg oCommitGroup) 39 32)
    match others.find? (fun m => m.beat != s.beat) with
    | some x =>
      if !s.b oBeatSync 31 || others.all (fun m => m.beat != s.beat) then s.readyLost x.src true
      else { s with stage := { s.stage with missed := true } }
    | none => if !others.isEmpty && !s.b oBeatSync 31 then s.readyLost s.me true else s

/-- A member to which some messages of a boundary did not come, with another member's ready flag gone (R68): that member has applied, and this
one has missed the AND. -/
def State.noteApplied (s : State) (before_ after : BeatMsg) : State :=
  if s.stageState = 4 && s.stage.groupAt.isNone && s.stage.missed && before_.ready && !after.ready &&
      (s.stagedMates (fld (s.stg oCommitGroup) 39 32)).any (fun m => m.src = after.src) then s.readyLost after.src true
  else s

/-- The ready flag set at a boundary (R66). -/
def State.readySend (s : State) : State :=
  if s.stageState = 3 && s.stage.armScope then
    ({ s.setF oStageResult 3 0 4 with stage := { s.stage with readyAt := s.beat, groupAt := none, missed := false } } : State).noteReady
  else s.noteReady

/-- The end of the wait for readiness (R68): the first member without its flag is the one lost. -/
def State.readyLate (s : State) : State :=
  if s.stageState = 4 && s.stage.groupAt.isNone && s.stage.readyAt + s.voteTimeout ≤ s.beat then
    s.readyLost ((((s.stagedMates (fld (s.stg oCommitGroup) 39 32)).find? (fun m => !m.ready)).map (·.src)).getD s.me) false
  else s

/-! Growth (R52) -/

/-- The work of the live profile: N of each descriptor of the step set, b, N_sw. -/
def State.liveWork (s : State) : List Nat × Frac × Nat :=
  let set := stepSet s.live
  let w := s.workOf s.fab.resident (s.reg oTierMap) 0 set
  (set.map (fun d => (s.desc d).tiles), w.b, (s.mapWork s.fab.resident (if s.mapResident = 0 then [] else s.liveMap)).1)

/-- STALE after a change of descriptors that increases N of a descriptor of the applied step set, b or N_sw (R52, R174). -/
def State.grown (old s : State) : State :=
  let a := s.stage.inForce
  if a.lenK = 0 then s
  else
    let (n0, b0, w0) := old.liveWork
    let (n1, b1, w1) := s.liveWork
    let more := (List.zip n0 n1).any (fun (x, y) => x < y) || !b1.le b0
    let s := if more then
        s.setStale ((if s.f oProfileDeadlines 59 40 = 0 then [] else [0]) ++
          (if s.f oProfileSnap 63 44 = 0 ∧ s.f oProfileSnap 43 20 = 0 then [] else [1]))
      else s
    if w0 < w1 && s.f oProfileDeadlines 39 20 ≠ 0 then s.setStale [2] else s

/-! Rows -/

/-- The outcome of a command that the engine runs itself, after what was due at the boundary has taken effect (R69). -/
def State.workNow (s : State) (f : State → State) : Host.Outcome State Fault Refusal := s.work (fun s => f s.settle)

/-- The outcome of a register write with the effect f: none before the ports answer (R443), after what was due at the boundary has taken
effect (R69). -/
def State.portNow (s : State) (f : State → State) : Host.Outcome State Fault Refusal :=
  s.act (fun s => if s.pin.phase < 2 then s else f s.settle)

/-- CHECK: a write of STAGE_CTL with CHECK (R50, R62). -/
def execCheck (value : Word) (s : State) : Host.Outcome State Fault Refusal := s.portNow (fun s => s.stageCtl value)

/-- CHECK_COMPLETE (R50, R459). A report is stale at once while a LUN nearly out of free blocks collects (R339). -/
def execCheckComplete (s : State) : Host.Outcome State Fault Refusal :=
  s.workNow (fun s => if s.stageState = 1 then s.checkEnd.tightStale else s)

/-- APPLY: a write of STAGE_CTL with APPLY (R62, R65). -/
def execApply (value : Word) (s : State) : Host.Outcome State Fault Refusal := s.portNow (fun s => s.stageCtl value)

/-- APPLY_TAKE_EFFECT (R65, R69): a local APPLY at its boundary, after a flip that falls on it. -/
def execApplyTakeEffect (s : State) : Host.Outcome State Fault Refusal :=
  s.work (fun s => if s.applyDue then s.settle else s)

/-- GROUP_APPLY (R66, R69). -/
def execGroupApply (s : State) : Host.Outcome State Fault Refusal :=
  s.work (fun s => if s.groupDue then s.settle else s)

/-- GROUP_APPLY_TIMEOUT (R68). -/
def execGroupApplyTimeout (s : State) : Host.Outcome State Fault Refusal := s.workNow State.readyLate

/-- CANCEL: a write of STAGE_CTL with CANCEL (R62, R67). -/
def execCancel (value : Word) (s : State) : Host.Outcome State Fault Refusal := s.portNow (fun s => s.stageCtl value)

/-- LOAD: a write of STAGE_CTL with LOAD (R62, R64). -/
def execLoad (value : Word) (s : State) : Host.Outcome State Fault Refusal := s.portNow (fun s => s.stageCtl value)

/-- QUIESCE: a write of CTL (R463, R464); it takes effect at the next boundary. -/
def execQuiesce (value : Word) (s : State) : Host.Outcome State Fault Refusal := s.portNow (fun s => s.ctlWrite value)

/-- A changed variant's tiles issued under the old configuration are still in flight (R134). -/
def State.draining (s : State) (v : Nat) : Bool :=
  s.jobs.any (fun j => j.q = .uq && (match s.run .uq with
    | some r => r.seq = j.seq && (r.opc = 0x30 || r.opc = 0x31) && (descOf j.desc j.words).variant = v
    | none => false))

/-- VARIANT_RELOAD_DONE (R134, R164): the variant's rings are set up from the new entries and it resumes. -/
def execVariantReloadDone (variant : Nat) (s : State) : Host.Outcome State Fault Refusal :=
  s.workNow (fun s =>
    if !s.fab.loading.contains variant || s.draining variant then s
    else
      let es := enginesOf s.fab.prev [variant] ++ enginesOf s.fab.resident [variant]
      let s := s.setRings es.contains
      let left := s.fab.loading.filter (· != variant)
      ({ s with fab := { s.fab with loading := left } } : State).setB oTvdStat 1 (!left.isEmpty))

end Sys2Proof.Machine
end

