-- ==== Sys2Proof/Machine/Beat.lean ====
section
/-! DEFINITION. Beats and beat sync (R25 to R31, R238, R243, R248, R431, R438, R439, R464, R469): what happens at a boundary, the
messages of beat sync, faults of it and failover, and the group barriers that ride on it. -/
namespace Sys2Proof.Machine

/-- What this instance advertises of some copies of COMMIT_GROUP and SNAP_CFG (R71, R370). -/
def advertise (group snap : Word) (feed : Nat) : Advert :=
  ⟨fld group 39 32, fld group 55 48, fld group 47 40, feed, bit snap 55, fld snap 63 56, fld snap 31 16⟩

/-- The beat master that this instance takes (R27, R29): itself, or one that it has heard of; MASTER_ID reads the own INST_ID before. -/
def State.master (s : State) : Option Nat :=
  if s.b oBeatCfg 16 || s.f oBeatSync 47 40 != s.me then some (s.f oBeatSync 47 40) else none

/-- The beat-sync message of this instance at the boundary that began the present beat (R26, R27, R29, R66, R71, R243, R370). -/
def State.syncMsg (s : State) : BeatMsg :=
  let feed := s.f oSnapCfg 3 0
  { src := s.me, beat := s.beat, master := s.master, lenK := fld (s.stg oBeatCfg) 6 0, lenForce := s.f oBeatCfg 6 0
    newLen := if s.b oBeatCfg 16 then s.peer.newLen.find? (fun x => x.2 = s.beat + 1) else none
    heard := s.peer.synced
    live := advertise (s.reg oCommitGroup) (s.reg oSnapCfg) feed
    staged := advertise (s.stg oCommitGroup) (s.stg oSnapCfg) feed
    ready := s.stageState = 4
    arrive := if s.b oBeatSync 31 then s.arrivals else List.replicate 4 ⟨false, 0⟩ }

/-- A log entry of class 0x11 (R28, R29, R366). -/
def State.syncEvent (s : State) (detected : Bool) (unit : Nat) : State := s.fault (FaultEv.unitOnly 0x11 detected 0 unit)

/-- Another master taken (R29). UNIT of the log entry is the new master's INST_ID (assumption log 17). -/
def State.newMaster (s : State) (m : Nat) : State :=
  if s.master = some m then s
  else
    let mine := m = s.me
    let s := ((s.setF oBeatSync 47 40 m).setB oBeatSync 33 true).setB oBeatCfg 16 mine
    let s := if mine then s.setB oBeatSync 31 true else { s.setB oBeatSync 31 false with peer := { s.peer with badRun := 0, goodRun := 0 } }
    s.syncEvent false m

/-! Barriers -/

/-- A group barrier is released at the coming boundary (R243): the flags sent at the boundary that began the present beat are all
set with its identifier, this member's among them, and come from the whole group. -/
def State.barrierDue (s : State) (q : Queue) (r : Run) : Bool :=
  r.opc = 0x01 && r.phase = 1 && r.info[1]? = some s.beat && s.members.length = s.groupSize &&
  s.members.all (fun m => m = s.me || s.peer.adverts.any (fun a => a.src = m && a.beat = s.beat &&
    (match a.arrive[qIdx q]? with | some f => f.flag && f.id = r.fld 16 4 | none => false)))

/-- The queues whose group barrier is released at the coming boundary. -/
def State.barriersDue (s : State) : List Queue :=
  [Queue.gq, .aq, .uq, .sq].filter (fun q => match s.run q with | some r => s.barrierDue q r | none => false)

/-- Group barriers completed (R243). -/
def State.barriersEnd (s : State) (qs : List Queue) : State :=
  qs.foldl (fun s q => match s.run q with
    | some r => (s.complete q r 0x00 []).settleHead q
    | none => s) s

/-- The end of the wait of a group barrier (R243). -/
def State.barrierLate (s : State) (q : Queue) : State :=
  match s.run q with
  | some r =>
    if r.opc = 0x01 && r.phase = 1 && !r.info.isEmpty && r.info.headD 0 + s.voteTimeout ≤ s.beat then
      let missing := s.members.find? (fun m => m != s.me && !s.peer.adverts.any (fun a => a.src = m && a.beat = s.beat &&
        (match a.arrive[qIdx q]? with | some f => f.flag && f.id = r.fld 16 4 | none => false)))
      ((s.peerLost (some q) r.seq (missing.getD s.me)).complete q r 0x22 []).settleHead q
    else s
  | none => s

/-! The boundary -/

/-- A ring at a boundary (R238, R251): `run` says that its stream runs, `stall` that the watchdog counts the boundary (R248). -/
def Ring.boundary (r : Ring) (pf : Word) (run stall : Bool) : Ring :=
  let rich := if r.lowSeen then 0 else r.rich + 1
  let depth :=
    if bit pf 16 then min (max (fld pf 4 0) 2) (r.slots - 1)
    else if !run then r.depth
    else if r.thin then min (r.depth + 1) (r.slots - 1)
    else if 4 ≤ rich then max (r.depth - 1) 2
    else r.depth
  { r with depth := depth, entries := r.entries.map (fun e => { e with again := e.again && !e.full }), starved := false, thin := false, lowSeen := false, rich := min rich 4, moved := false, pinned := bit pf 16
           stalls := if stall then r.stalls + 1 else 0 }

/-- The next tile of a queue's command waits on a gate (R241). -/
def State.gateWait (s : State) (q : Queue) : Bool :=
  match (s.run q).bind s.nextWork with
  | some w => w.group.any (fun x => !w.gate x w.tile)
  | none => false

/-- The queue waits at a BARRIER (R242). -/
def State.barWait (s : State) (q : Queue) : Bool := match s.run q with | some r => r.opc = 0x01 | none => false

/-- The rings whose streams wait on a tier page for the next tile of a queue's command (R239): a page that they have asked for and that the
tile needs. A page to be written is asked for as its tile is at hand. -/
def State.tierRings (s : State) (q : Queue) : List Nat :=
  match (s.run q).bind s.nextWork with
  | none => []
  | some w =>
    let needs := fun (x : Wait) => match w.group.find? (·.ring = x.who) with
      | some g => g.out || (s.pagesOf (w.feed.reads g.ring w.tile)).contains x.page
      | none => x.who = noRing
    (s.tier.waits.filter (fun x => x.q = qIdx q && !x.late && !(s.page x.page).served && needs x)).map (·.who)

/-- A queue's command waits on the tier (R239, R332, R358): for a page of its next tile, for a page of a tile in flight whose frame was given up,
or for units that it reads through. -/
def State.tierWait (s : State) (q : Queue) : Bool :=
  !(s.tierRings q).isEmpty || s.jobs.any (fun j => j.q = q && j.fault = 0 && j.pages.any (fun i => !(s.page i).served)) ||
    (q = .sq && (s.tier.ops ++ s.tier.backlog).any (fun o => match o.use with | .through _ => true | _ => false)) ||
    (q = .sq && s.tier.waits.any (fun x => x.q = 3 && x.who = readThrough))

/-- An engine has work (R248): tiles of its command to issue, or in flight, pass through its rings. -/
def State.engineWorks (s : State) (e : Nat) : Bool :=
  let r := s.ring (s.lastRing e)
  let q := r.queue
  let mine := fun (g : List GRing) => g.any (fun x => engineOf x.ring = e)
  match s.run q with
  | some x => r.user = userId q x.seq &&
      ((match s.nextWork x with | some w => mine w.group | none => false) || (s.jobsOf q x.seq).any (fun j => mine (s.groupOf x j)))
  | none => false

/-- STATE of an engine (R252). -/
def State.streamState (s : State) (e : Nat) : Nat :=
  let q := (s.ring (s.lastRing e)).queue
  let tier := (s.tierRings q).any (fun k => k = noRing || (s.ringsOf e).contains k) ||
    (s.jobs.any (fun j => j.q = q && j.fault = 0 && j.pages.any (fun i => !(s.page i).served)))
  s.engineState e (s.gateWait q) tier (s.barWait q)

/-- The rings of every engine at a boundary (R238, R248, R252, R464). The streams of an engine progress together. -/
def State.ringsBoundary (s : State) : State :=
  (List.range 32).foldl (fun s e =>
    let ks := (s.ringsOf e).filter (fun k => (s.ring k).slots != 0)
    if ks.isEmpty then s
    else
      let q := (s.ring (s.lastRing e)).queue
      let works := s.engineWorks e
      let wait := s.engineStopped e || s.gateWait q || s.tierWait q || s.barWait q || s.quiesced
      let stall := works && !wait && !ks.any (fun k => (s.ring k).moved)
      let s := if ks.any (fun k => (s.ring k).starved) then s.count (oStrmStat e) 31 0 1 else s
      ks.foldl (fun s k => s.setRing k ((s.ring k).boundary (s.reg (oStrmPf e)) works stall)) s) s

/-- Beats waited, counted at a boundary: a fold at the gate of R18, a CLOSE_STEP before its step may close, a SNAPSHOT that a sweep
waits on (R260, R271, R373). -/
def State.countWaits (s : State) : State :=
  let s := match s.run .aq with
    | some r =>
      if ((r.opc = 0x20 || r.opc = 0x21) && s.foldGated r) || (r.opc = 0x22 && r.phase = 0 && s.stepNow + 1 < r.step) then
        s.setRun .aq (some { r with gated := r.gated + 1 })
      else s
    | none => s
  match s.run .sq, s.run .uq with
  | some r, some u =>
    let held := match u.latched with
      | some ws => (u.opc = 0x30 || u.opc = 0x31) && !u.issued &&
          r.banks.contains (u.desc, (s.latchedDesc u.desc ws).umber) && !s.passed .sq r u.desc u.tile
      | none => false
    if r.opc = 0x42 && held then s.setRun .sq (some { r with gated := r.gated + 1 }) else s
  | _, _ => s

/-- A fault holds tiles of a queue's command up (R53, R369): an Amber episode those of every command, a stream stop those of its command, a spare
lane being loaded and an SRAM bank being copied those that need them, a replay those in flight, a slot that is refilled those in it, and a page
promoted again (R358) those in flight and the next one. -/
def State.heldUp (s : State) (q : Queue) (r : Run) : Bool :=
  let anew := fun i => s.tier.waits.any (fun w => w.q = 6 && w.page = i)
  s.b oAmberStat 1 || s.stops.any (fun x => x.q = q && x.seq = r.seq) || s.unitWait r ||
  (s.jobsOf q r.seq).any (fun j => j.again || j.pages.any anew) ||
  s.rings.any (fun y => y.entries.any (fun e => e.again && e.user = userId q r.seq)) ||
  (s.tier.waits.any (·.q == 6) && (match s.nextWork r with
    | some w => w.group.any (fun x => !x.out && (s.pagesOf (w.feed.reads x.ring w.tile)).any anew)
    | none => false))

/-- Beats by which a fault holds a command up, counted at a boundary toward its deadline (R53, R369). -/
def State.extend (s : State) : State :=
  [Queue.gq, .aq, .uq, .sq].foldl (fun s q => match s.run q with
    | some r =>
      if !r.best && s.heldUp q r then s.setRun q (some { r with ext := r.ext + 1 }) else s
    | none => s) s

/-- DBG_SHARE for the beat that ends (R469): seven shares that sum to at most 256, otherwise free. -/
def State.shares (s : State) : State :=
  let (w, _) := (List.range 7).foldl (fun (acc : Word × Nat) k =>
    let v := Config.freeShare k s.freeCtr % (acc.2 + 1)
    (setFld acc.1 (9 * k + 8) (9 * k) v, acc.2 - v)) (0#64, 256)
  (s.setReg oDbgShare w).drawn 1

/-- Thermal action at a boundary (R431, R438, R439, R440). -/
def State.thermal (s : State) : State :=
  let warn := s.f oPwrCfg 41 32
  let capL := min s.stage.inForce.lanes (s.f oFabStat 23 12)
  let capR := min s.stage.inForce.rows (s.f oMxStat 23 12)
  let hot := s.b oPwrStat 3
  let l := if hot then min capL (s.f oPwrStat 43 32) else capL
  let r := if hot then min capR (s.f oPwrStat 31 24) else capR
  let temp := match s.pin.temp with
    | some c => some c
    | none => if s.b oPwrCfg 1 then some warn else none
  let (l, r) := match temp with
    | some c =>
      if warn ≤ c then (min capL (max 8 (l - 8)), min capR (max 8 (r - 8)))
      else if c + s.f oPwrCfg 31 24 ≤ warn then (min capL (l + 8), min capR (r + 8))
      else (l, r)
    | none => (l, r)
  -- R136: an L change that falls due during the recovery from a lane error waits; that is no thermal reason
  let want := l
  let l := if s.recovering then s.f oPwrStat 43 32 else want
  let low := (l < capL && want < capL) || r < capR
  let s := ((s.setF oPwrStat 43 32 l).setF oPwrStat 31 24 r).setB oPwrStat 3 low
  let s := { s with fab := { s.fab with curL := l } }
  let s := if low then (s.setB oPwrStat 0 true).setStale [0, 2] else s
  let s := if low || s.b oPwrStat 4 then s.count oTempStat 63 32 1 else s
  let cool := match s.pin.temp with | some c => c < warn | none => false
  if s.pin.hotStop && cool then { s with pin := { s.pin with hotStop := false } } else s

/-- A beat that the tier timeout does not count (R464): each wait for a page counts as one beat younger. -/
def State.waitLonger (s : State) : State :=
  { s with tier := { s.tier with waits := s.tier.waits.map (fun (w : Wait) => { w with since := w.since + 1 }) } }

/-- A pending beat length in force (R26). -/
def State.lenDue (s : State) : State :=
  match (s.peer.newLen.filter (fun x => x.2 ≤ s.beat)).getLast? with
  | some (l, _) =>
    let s := { s.setF oBeatCfg 6 0 l with peer := { s.peer with newLen := s.peer.newLen.filter (fun x => s.beat < x.2) } }
    let a := s.stage.inForce.lenK
    if a ≠ 0 ∧ a ≠ l then s.setStale [0, 1, 2, 3] else s
  | none => s

/-- The offset measured at a boundary (R27, R28, R31). -/
def State.offset (s : State) (ns : Int) : State :=
  if s.b oBeatCfg 16 then s.setF oBeatSync 15 0 0
  else
    let bad := 50 < ns.natAbs
    { s.setF oBeatSync 15 0 (BitVec.ofInt 16 ns).toNat with peer := { s.peer with
        badRun := if bad then s.peer.badRun + 1 else 0, goodRun := if bad then 0 else s.peer.goodRun + 1 } }

/-- A new beat (R25): the beat that ends is accounted for; the count advances; what takes effect at a boundary does. Flips and APPLYs
that fall on the new boundary follow by their own rows, or before the next command of the engine (R69). Beat sync goes out before anything
else that the boundary sends (R408). -/
def State.boundary (s : State) (ns : Int) : State :=
  let s := s.settle
  let s := s.noteMissed
  let due := if s.alive then s.barriersDue else []
  let s := (s.extend.ringsBoundary.countWaits).shares
  let s := (s.setF oBeatNow 47 0 (s.beat + 1)).life 0 1
  let s := s.barriersEnd due
  let s := s.lenDue
  -- R464: QUIESCE takes effect
  let q := s.b oCtl 0
  let s := if q && !s.quiesced then s.setStale [0, 1, 2, 3] else s
  let s := { s with quiesced := q }
  let s := if q then s.waitLonger else s
  let s := s.thermal
  -- R368: Amber beats
  let s := if s.b oAmberStat 1 then s.count oAmberBeat 63 48 1 else { s with res := { s.res with amberLog := [] } }
  let s := if !s.alive then s else if s.flipDue then s.cyanSwitch else s.cyanSwitch.restDue
  let s := (s.offset ns).readySend.arriveSent
  let s := s.send (.beatSync s.syncMsg)
  if s.alive then ([Queue.gq, .aq, .uq, .sq].foldl State.reachAhead s).evictHeld.tightStale else s

/-- The master that a message makes this instance take (R27, R29): the one it names, for an instance that knows of none. Else one that has heard of no
other since its reset takes the master of one that has, and not the other way round: a former master that returns does not take the role back.
Between two that have both heard others, or neither, a sender that claims the role with a lower INST_ID is taken (assumption log 16). -/
def State.claimed (s : State) (m : BeatMsg) : Option Nat :=
  match m.master, s.master with
  | none, _ => none
  | some x, none => some x
  | some x, some cur =>
    if x = cur then none
    else if !s.peer.synced && m.heard then some x
    else if x = m.src && x < cur && s.peer.synced == m.heard then some x
    else none

/-- The master that a message names taken, with its count: the first one that an instance hears of is no change of master. -/
def State.takeMaster (s : State) (m : BeatMsg) : State :=
  let t := match s.claimed m with
    | none => s
    | some x =>
      let t := if s.master.isNone && x != s.me then s.setF oBeatSync 47 40 x else s.newMaster x
      if t.b oBeatCfg 16 then t
      else { t.setF oBeatNow 47 0 m.beat with peer := { (t.setF oBeatNow 47 0 m.beat).peer with heardAt := m.beat } }
  { t with peer := { t.peer with synced := s.peer.synced || m.master.isSome } }

/-- A beat-sync message received (R26, R27, R29, R66, R68, R71, R384). -/
def State.hear (s : State) (m : BeatMsg) : State :=
  if m.src = s.me then s
  else
    let s := s.takeMaster m
    let s := match s.peer.adverts.find? (fun a => a.src = m.src) with | some a => s.noteApplied a m | none => s
    let s := { s with peer := { s.peer with adverts := s.peer.adverts.filter (fun (a : BeatMsg) => a.src != m.src) ++ [{ m with beat := s.beat }] } }
    let s := if m.src = s.f oBeatSync 47 40 && !s.b oBeatCfg 16 then
        let more := m.newLen.toList.filter (fun x => !s.peer.newLen.contains x)
        let s := { s with peer := { s.peer with heardAt := s.beat, newLen := s.peer.newLen ++ more } }
        if s.peer.newLen.isEmpty && m.lenForce ≠ s.f oBeatCfg 6 0 then
          let s := s.setF oBeatCfg 6 0 m.lenForce
          let a := s.stage.inForce.lenK
          if a ≠ 0 ∧ a ≠ m.lenForce then s.setStale [0, 1, 2, 3] else s
        else s
      else s
    (s.noteReady).askTables m.src

/-- SYNC_FAULT (R28). -/
def State.syncFault (s : State) : State :=
  if 4 ≤ s.peer.badRun && !s.b oBeatCfg 16 then
    ((s.setB oBeatSync 32 true).setB oBeatSync 31 false).syncEvent true s.me
  else s

/-- LOCKED again (R28). -/
def State.relock (s : State) : State :=
  if 4 ≤ s.peer.goodRun && !s.b oBeatCfg 16 then s.setB oBeatSync 31 true else s

/-- The master lost, and another elected among those still heard (R29). -/
def State.masterLost (s : State) : State :=
  if s.b oBeatCfg 16 || s.beat < s.peer.heardAt + 4 then s
  else
    let s := s.setB oBeatSync 31 false
    let old := s.f oBeatSync 47 40
    let ids := (s.peer.adverts.filter (fun m => s.fresh m && m.src != old)).map (·.src)
    { s.newMaster (ids.foldl min s.me) with peer := { s.peer with heardAt := s.beat, badRun := 0, goodRun := 0 } }

/-! Rows -/

/-- BEAT_BOUNDARY (R25). Beats run, and beat sync with them, once phase 2 has applied or ignored the image (R442). -/
def execBeatBoundary (offsetNs : Int) (s : State) : Host.Outcome State Fault Refusal :=
  s.act (fun s => if s.pin.phase < 3 then s else s.boundary offsetNs)

/-- BEAT_SYNC_MSG (R27). -/
def execBeatSyncMsg (m : BeatMsg) (s : State) : Host.Outcome State Fault Refusal :=
  s.act (fun s => if s.pin.phase < 3 then s else s.hear m)

/-- SYNC_FAULT (R28). -/
def execSyncFault (s : State) : Host.Outcome State Fault Refusal :=
  s.act (fun s => if s.pin.phase < 3 then s else s.syncFault)

/-- BEAT_RELOCK (R28). -/
def execBeatRelock (s : State) : Host.Outcome State Fault Refusal :=
  s.act (fun s => if s.pin.phase < 3 then s else s.relock)

/-- MASTER_LOST (R29). -/
def execMasterLost (s : State) : Host.Outcome State Fault Refusal :=
  s.act (fun s => if s.pin.phase < 3 then s else s.masterLost)

/-- GROUP_BARRIER_TIMEOUT (R243). -/
def execGroupBarrierTimeout (q : Queue) (s : State) : Host.Outcome State Fault Refusal := s.workNow (fun s => s.barrierLate q)

end Sys2Proof.Machine
end

