-- ==== Sys2Proof/Machine/HostPort.lean ====
section
/-! DEFINITION. The host memory port (R60, R61, R282, R323 to R333, R395 to R399): what an address reads as, which writes are refused,
bursts that wait for a tiered page, credits. -/
namespace Sys2Proof.Machine

/-- A byte of an engine-owned table whose layout the manual does not give (R327): forward-copy pool, sort scratch, contribution logs,
block table, frame table, commit journal. Such a byte reads as a free value (assumption log 3). -/
def freeTable (a : Nat) : Bool :=
  [(0x10800000, 0x4000000), (0x14800000, 0x10000000), (0x25800000, 0x200000), (0x2C000000, 0x4000000), (0x34000000, 0x80000),
   (0x34900000, 0x1000)].any (fun (x, n) => x ≤ a && a < x + n)

/-- A byte as host software reads it: tables that the engine keeps in another form are laid out here (R329, R338). -/
def State.hostByte (s : State) (a : Nat) : Byte :=
  if 0x40000000 ≤ a && a < 0xC0000000 then
    nth 0#8 (leBytes 4 (fget unitDflt s.tier.units ((a - 0x40000000) / 4))) (a % 4)
  else if 0x30000000 ≤ a && a < 0x34000000 then nth 0#8 (s.pageEntry ((a - 0x30000000) / 16)) (a % 16)
  else if freeTable a then Config.freeByte a s.freeCtr
  else s.byte a

/-- The banked arrays that a range meets, each with the distance of its bank from bank 0 and from Ivory (R56, R171). -/
structure BankHit where
  base : Nat
  len  : Nat
  bank : Nat          -- bytes from bank 0 to the bank of this array
  ivory : Nat         -- bytes from bank 0 to the Ivory bank
  deriving DecidableEq, Repr

/-- The banked arrays that a range meets. -/
def State.bankHits (s : State) (a n : Nat) : List BankHit :=
  s.liveDescs.flatMap (fun i =>
    let d := s.desc i
    let v := s.variantOf d
    [0, 1].flatMap (fun b => ((bankArrays s.fab.resident v d b).filter (fun (x, m) => overlap a n x m)).map (fun (x, m) =>
      ⟨x, m, b * d.bankStep, d.role * d.bankStep⟩)))

/-- The address that a host read of an address of a banked array is served from: the Ivory bank (R60). -/
def ivoryOf (hs : List BankHit) (a : Nat) : Nat :=
  match hs.find? (fun h => h.base ≤ a && a < h.base + h.len) with
  | some h => a - h.bank + h.ivory
  | none => a

/-- An address lies in the Cyan view (R282). -/
def State.inView (s : State) (a : Nat) : Bool := s.cyanSize != 0 && s.cyanView ≤ a && a < s.cyanView + s.cyanSize

/-- The addresses that the bytes of a read burst are served from, resolved at its grant (R60, R282). -/
def State.readAddrs (s : State) (a n : Nat) : List Nat :=
  let a := if s.inView a then s.cyanBase s.serving + (a - s.cyanView) else a
  let hs := s.bankHits a n
  if hs.isEmpty then (List.range n).map (a + ·) else (List.range n).map (fun i => ivoryOf hs (a + i))

/-- The tiered pages of some addresses. -/
def State.addrPages (s : State) (as : List Nat) : List Nat :=
  let n := s.f oTierMap 22 0
  ((as.filter (fun a => 0x10000000000 ≤ a)).map (fun a => (a - 0x10000000000) / 2 ^ 21)).eraseDups.filter (· < n)

/-- Bytes that a burst covers. -/
def Burst.len (b : Burst) : Nat := 64 * b.beats

/-- The burst crosses a 256-byte line (R397). -/
def Burst.crosses (b : Burst) : Bool := 256 < b.addr % 256 + b.len

/-- The addresses of the bytes that a write burst's mask enables. -/
def Burst.enabled (b : Burst) : List Nat :=
  ((List.zip (List.range b.len) b.mask).filter (·.2)).map (fun x => b.addr + x.1)

/-- An enabled byte of a write is protected (R61, R170, R282, R326). -/
def State.writeRefused (s : State) (b : Burst) : Bool :=
  let as := b.enabled
  let hs := s.bankHits b.addr b.len
  let sv := s.cyanBase s.serving
  as.any (fun a => s.inView a || privProtected a || (s.cyanSize != 0 && sv ≤ a && a < sv + s.cyanSize) ||
    hs.any (fun h => h.base ≤ a && a < h.base + h.len)) ||
  s.liveDescs.any (fun i =>
    let d := s.desc i
    d.slate && as.any (fun a => slateAddr d ≤ a && a < slateAddr d + 2 * d.positions))

/-! Credits (R396) -/

/-- Request and write-beat credits that the host chip holds on a sub-port. -/
def State.credits (s : State) (sub : Nat) : Nat × Nat := nth (0, 0) s.io.credits sub

/-- Credits changed. -/
def State.setCredits (s : State) (sub : Nat) (c : Nat × Nat) : State :=
  { s with io := { s.io with credits := setNth s.io.credits sub c } }

/-- A request or a beat without a credit discarded (R396, R399). -/
def State.hmProtocol (s : State) : State := s.count oHmStat 7 0 1

/-- The end of a burst (R396, R397, R399): its response, its credits back, its status counted. -/
def State.hmEnd (s : State) (b : Burst) (status : Nat) (data : List Byte) : State :=
  let (rc, wc) := s.credits b.sub
  let s := s.setCredits b.sub (rc + 1, if b.write then wc + b.beats else wc)
  let s := if status = 1 then s.count oHmStat 63 40 1 else if status = 2 then s.count oHmStat 39 24 1
    else if status = 3 then s.count oHmStat 23 8 1 else s
  let s := if status = 0 then s else s.setReg oHmLast (setFld (setFld 0#64 63 62 status) 47 6 (b.addr / 64))
  s.respond ⟨b.sub, b.write, b.tag, status, if b.write then [] else if status = 0 then data else List.replicate b.len 0#8⟩

/-- The pages of a burst as it meets them (R329, R333, R398), all of them asked for and pinned: none when they are held, 2 when one is POISONED or has
not come within TIMEOUT, 4 when it waits. -/
def State.burstPages (s : State) (b : Burst) (is : List Nat) : State × Option Nat :=
  if s.tier.waits.any (fun w => w.q = 4 && w.who = b.id && w.late) || is.any (fun i => (s.page i).st = .poisoned) then (s, some 2)
  else
    let s := is.foldl (fun s i => s.request i 4 b.id) s
    if is.all (fun i => (s.page i).served) then (is.foldl (fun s i => s.touch b.write i) s, none) else (s, some 4)

/-- A burst that ends lets its pages go (R330); a promotion that came too late for it goes on (R333). -/
def State.burstGone (s : State) (b : Burst) : State :=
  let mine := fun (w : Wait) => w.q = 4 && w.who = b.id
  let on := ((s.tier.waits.filter (fun w => mine w && w.late && !(s.page w.page).served &&
    !s.tier.waits.any (fun v => v.q = 7 && v.page = w.page))).map (fun w => (⟨w.page, s.beat, 7, false, 0⟩ : Wait)))
  { s with tier := { s.tier with waits := s.tier.waits.filter (fun w => !mine w) ++ on } }

/-- The channel reads of some bytes (R401). -/
def State.readLines (s : State) (as : List Nat) : State := s.chanGet ((as.map (· / 256)).eraseDups.map (fun l => (256 * l, 1)))

/-- An uncorrectable line that a host burst met (R358, R361). -/
def State.hostLine (s : State) (a : Nat) : State := s.lineFault none 0 0xFFFF 0 0 a

/-- A read burst attempted; none while it waits for a page. -/
def State.tryRead (s : State) (b : Burst) : State × Bool :=
  if b.crosses || !(s.inView b.addr || s.populated b.addr b.len) then (s.hmEnd b 3 [], true)
  else
    let as := s.readAddrs b.addr b.len
    match s.burstPages b (s.addrPages as) with
    | (s, some 2) => (s.hmEnd b 2 [], true)
    | (s, some _) => (s, false)
    | (s, none) =>
      let s := s.readLines as
      match as.find? (fun a => s.badLine (a / 256)) with
      | some a => ((s.hostLine (a / 256 * 256)).hmEnd b 2 [], true)
      | none => ((s.hmEnd b 0 (as.map s.hostByte)).drawn (as.any freeTable).toNat, true)

/-- A write burst attempted; none while it waits for a page. -/
def State.tryWrite (s : State) (b : Burst) : State × Bool :=
  if b.crosses || !(s.inView b.addr || s.populated b.addr b.len) then (s.hmEnd b 3 [], true)
  else if s.writeRefused b then (s.hmEnd b 1 [], true)
  else if s.inView b.addr then (s.hmEnd b 0 [], true)
  else
    match s.burstPages b (s.addrPages [b.addr]) with
    | (s, some 2) => (s.hmEnd b 2 [], true)
    | (s, some _) => (s, false)
    | (s, none) =>
      let partly := b.beats != 4 || b.mask.any (!·)
      if partly && s.badLine (b.addr / 256) then (((s.readLines [b.addr]).hostLine (b.addr / 256 * 256)).hmEnd b 2 [], true)
      else
        let old := s.bytes b.addr b.len
        let new := List.zipWith (fun (o : Byte) (x : Byte × Bool) => if x.2 then x.1 else o) old (List.zip b.data b.mask)
        let t := s.put b.addr new
        let t := if b.addr < 0x400000 then State.grown s t else t
        (t.hmEnd b 0 [], true)

/-- A burst that has all it needs from the host: a write has every beat. -/
def Burst.ready (b : Burst) : Bool := !b.write || b.len ≤ b.data.length

/-- A burst attempted (R397): one with a reserved HM_QOP reaches no target. -/
def State.tryBurst (s : State) (b : Burst) : State × Bool :=
  if b.reserved then (s.hmEnd b 3 [], true) else if b.write then s.tryWrite b else s.tryRead b

/-- A burst that must stay behind another of its tag asks for its pages all the same (R398). -/
def State.askAhead (s : State) (b : Burst) : State :=
  if b.reserved || b.crosses || !s.populated b.addr b.len || s.inView b.addr || (b.write && s.writeRefused b) then s
  else (s.addrPages (if b.write then [b.addr] else s.readAddrs b.addr b.len)).foldl (fun s i => s.request i 4 b.id) s

/-- The bursts that wait tried again in order (R396, R398): a burst stays behind an earlier one of its sub-port with its tag. -/
def State.runBursts : List Burst → State → List Burst → State
  | [], s, kept => { s with io := { s.io with bursts := kept } }
  | b :: t, s, kept =>
    if !b.ready then State.runBursts t s (kept ++ [b])
    else if kept.any (fun x => x.sub = b.sub && x.tag = b.tag) then State.runBursts t (s.askAhead b) (kept ++ [b])
    else
      let (s, done) := s.tryBurst b
      State.runBursts t (if done then s.burstGone b else s) (if done then kept else kept ++ [b])

/-- Whatever waits for a page tried again: multicast slots and host bursts. -/
def State.wake (s : State) : State :=
  let s := s.retryHeld
  if s.io.bursts.isEmpty then s else State.runBursts s.io.bursts s []

/-- A request taken with its credit, or discarded (R396). -/
def State.hmRequest (s : State) (b : Burst) : State :=
  let (rc, wc) := s.credits b.sub
  if rc = 0 then s.hmProtocol
  else
    let s := s.setCredits b.sub (rc - 1, wc)
    let id := (s.io.bursts.map (·.id)).foldl max 0 + 1
    { s with io := { s.io with bursts := s.io.bursts ++ [{ b with id := id }] } }

/-- The first write of a sub-port that lacks a beat given it. -/
def giveBeat (sub : Nat) (d : List Byte) (m : List Bool) : List Burst → Option (List Burst)
  | [] => none
  | b :: t =>
    if b.sub = sub && !b.ready then some ({ b with data := b.data ++ d, mask := b.mask ++ m } :: t)
    else (giveBeat sub d m t).map (b :: ·)

/-- A write beat taken with its credit, or discarded (R396). -/
def State.hmBeat (s : State) (sub : Nat) (d : List Byte) (m : List Bool) : State :=
  let (rc, wc) := s.credits sub
  if wc = 0 then s.hmProtocol
  else match giveBeat sub d m s.io.bursts with
    | some bs => ({ s with io := { s.io with bursts := bs } } : State).setCredits sub (rc, wc - 1)
    | none => s.hmProtocol

/-- A read or reserved request (R397, R398). -/
def State.hostRead (s : State) (sub op addr beats tag : Nat) : State :=
  if op = 1 || 32 ≤ sub then s
  else
    (s.hmRequest ⟨sub, false, addr, beats, tag, [], [], op != 0, 0⟩).wake

/-- A write request with its beats (R397, R398). -/
def State.hostWrite (s : State) (sub addr beats tag : Nat) (data : List Byte) (mask : List Bool) : State :=
  if 32 ≤ sub then s
  else
    let s := s.hmRequest ⟨sub, true, addr, beats, tag, [], [], false, 0⟩
    let s := (List.range beats).foldl (fun s i =>
      s.hmBeat sub (padTo 0#8 64 ((data.drop (64 * i)).take 64)) (padTo false 64 ((mask.drop (64 * i)).take 64))) s
    s.wake

/-- HM_READ (R395 to R398). -/
def execHmRead (sub op addr beats tag : Nat) (s : State) : Host.Outcome State Fault Refusal :=
  s.act (fun s => s.settle.hostRead sub op addr beats tag)

/-- HM_WRITE (R395 to R398). -/
def execHmWrite (sub addr beats tag : Nat) (data : List Byte) (mask : List Bool) (s : State) : Host.Outcome State Fault Refusal :=
  s.act (fun s => s.settle.hostWrite sub addr beats tag data mask)

end Sys2Proof.Machine
end

