-- ==== Sys2Proof/Machine/ChanPort.lean ====
section
/-! DEFINITION. The channel ports, check words and the scrub (R355, R357 to R361, R400 to R403). A line is named by its place in the
stack; the memory of the model holds it under its Parameter Space address. -/
namespace Sys2Proof.Machine

/-! One-bit correction (R358 step 2) -/

/-- The bit of 256 data bytes whose flip has this syndrome: (byte, bit). `k` counts the bytes still to try, from the last one on; the list
holds the syndromes of the bits of that byte. -/
def findBit (syn : Nat) : Nat → List Nat → Option (Nat × Nat)
  | 0, _ => none
  | k + 1, es =>
    match (List.range 8).find? (fun b => nth 0 es b == syn) with
    | some b => some (k, b)
    | none => findBit syn k (es.map (crcByte 0x82F63B78))

/-- What the check word says of a line as read: good, one bit corrected (the data), or none of these (R358 steps 2 to 5). -/
inductive LineRead where
  | good
  | fixed (data : List Byte)
  | bad
  deriving DecidableEq, Repr

/-- A line of 256 bytes held against its check word (R357, R358). -/
def lineRead (data : List Byte) (check : BitVec 32) : LineRead :=
  let syn := crc32c data ^^^ check
  if syn = 0#32 then .good
  else if (List.range 32).any (fun i => syn == 1#32 <<< i) then .fixed data
  else
    match findBit syn.toNat 256 ((List.range 8).map (fun b => crcByte 0x82F63B78 (2 ^ b))) with
    | some (k, b) => .fixed ((List.zip (List.range data.length) data).map (fun (i, x) => if i = k then x ^^^ BitVec.ofNat 8 (2 ^ b) else x))
    | none => .bad

/-! Retries (R402) -/

/-- What a line's transfer has met: retries (R402), and whether it was read again for its check word (R358 step 1). -/
def State.lineTry (s : State) (l : Nat) (write : Bool) : Nat × Bool :=
  ((s.io.tries.find? (fun t => t.line = l && t.write = write)).map (fun t => (t.tries, t.again))).getD (0, false)

/-- How often a line has been asked for again. -/
def State.lineTries (s : State) (l : Nat) (write : Bool) : Nat := (s.lineTry l write).1 + (s.lineTry l write).2.toNat

/-- That noted; without a retry it is forgotten. -/
def State.setTry (s : State) (l : Nat) (write : Bool) (n : Nat) (again : Bool) : State :=
  let rest := s.io.tries.filter (fun t => !(t.line = l && t.write = write))
  { s with io := { s.io with tries := if n = 0 && !again then rest else rest ++ [⟨l, n, write, again⟩] } }

/-- Consecutive data beats of a port that failed all their retries (R355). -/
def State.portRun (s : State) (p : Nat) : Nat := ((s.io.portBad.find? (·.1 == p)).map (·.2)).getD 0

/-- That count set; a line has four beats. -/
def State.setPortRun (s : State) (p n : Nat) : State :=
  let rest := s.io.portBad.filter (·.1 != p)
  { s with io := { s.io with portBad := if n = 0 then rest else rest ++ [(p, n)] } }

/-- A line uncorrectable (R358 steps 4 and 5): it stays bad until it is written whole, and its readers end under their own rules. A line that holds no
part of the Parameter Space has no other reader to report it. -/
def State.lineBadNow (s : State) (l : Nat) : State :=
  match s.psLine l with
  | some p => if s.badLines.contains p then s else { s with badLines := s.badLines ++ [p] }
  | none =>
    let s := if s.io.badFree.contains l then s else { s with io := { s.io with badFree := s.io.badFree ++ [l] } }
    s.stackFault l none 0 0xFFFF 0 0 0

/-- The address that the fault log gives for a line of the stack: 0 when it holds no part of the Parameter Space. -/
def State.lineAddr (s : State) (l : Nat) : Nat := 256 * (s.psLine l).getD 0

/-- The tiered page whose frame holds a line, when its DIRTY is clear (R358 step 3). -/
def State.cleanPage (s : State) (l : Nat) : Option Nat :=
  let a := s.lineAddr l
  let i := (a - 0x10000000000) / 2 ^ 21
  if 0x10000000000 ≤ a && (s.page i).st = .resident && !(s.page i).dirty then some i else none

/-- A line whose check word fails (R358): in a frame of a clean page the frame is given up and the page promoted again (step 3); any other line is
uncorrectable. For the scrub step 3 is left out (R361): the line is reported, and one of a clean page stays for its next reader. A line of the
scrub's last slice is taken as read by the scrub (assumption log 5). -/
def State.lineLost (s : State) (l : Nat) : State :=
  let scrub := s.io.slice.1 ≤ l && l < s.io.slice.1 + s.io.slice.2
  match s.cleanPage l with
  | some i =>
    if scrub then s.stackFault l none 0 0xFFFF 0 0 (s.lineAddr l)
    else
      let s := (s.logFault ⟨0x0D, false, 0, l % 64, none, 0, 0xFFFF, 0, s.lineAddr l⟩).leaveFrame i
      { s with tier := { s.tier with waits := s.tier.waits ++ [⟨i, s.beat, 6, false, noRing⟩] } }
  | none =>
    if scrub && (s.psLine l).isSome then (s.lineBadNow l).stackFault l none 0 0xFFFF 0 0 (s.lineAddr l) else s.lineBadNow l

/-- A line that reads well. -/
def State.lineGood (s : State) (l : Nat) (data : List Byte) : State :=
  match s.psLine l with
  | none => s
  | some p =>
    let s := { s with badLines := s.badLines.filter (· != p) }
    if data.length = 256 then s.store (256 * p) data else s

/-- A line as memory holds it. -/
def State.lineBytes (s : State) (l : Nat) : List Byte :=
  match s.psLine l with
  | some p => s.bytes (256 * p) 256
  | none => List.replicate 256 0#8

/-- The transfer of a line failed (R402): the whole line is asked for again, up to three times; then it is uncorrectable under step 5 of R358. -/
def State.lineRetry (s : State) (l : Nat) (write : Bool) : State :=
  let p := l % 64
  let (n, again) := s.lineTry l write
  let s := s.logFault ⟨0x0A, false, 0, p, none, 0, 0xFFFF, 0, s.lineAddr l⟩
  if n < 3 then (s.setTry l write (n + 1) again).chanGo [(l, if write then some (s.lineBytes l) else none)]
  else ((s.setTry l write 0 false).setPortRun p (s.portRun p + 4)).lineBadNow l

/-- A line returned (R358, R402): the parity of its beats first, then its check word: read again once, corrected and written back, or lost. -/
def State.readReturn (s : State) (l : Nat) (data : List Byte) (check : BitVec 32) (parityOk : Bool) : State :=
  if !parityOk then s.lineRetry l false
  else
    let (n, again) := s.lineTry l false
    let s := s.setPortRun (l % 64) 0
    match lineRead data check, again with
    | .good, _ => (s.setTry l false 0 false).lineGood l data
    | .fixed d, true =>
      let s := ((s.count oCheckStat 63 32 1).life 4 1).logFault ⟨0x0C, false, 0, l % 64, none, 0, 0xFFFF, 0, s.lineAddr l⟩
      ((s.setTry l false 0 false).lineGood l d).chanGo [(l, some d)]
    | .bad, true => (s.setTry l false 0 false).lineLost l
    | _, false => (s.setTry l false n true).chanGo [(l, none)]

/-- CH_READ_RETURN (R358, R402). A return of an attempt that is no longer awaited changes nothing. -/
def execChReadReturn (line : Nat) (data : List Byte) (checkWord : BitVec 32) (parityOk : Bool) (attempt : Nat) (s : State) :
    Host.Outcome State Fault Refusal :=
  s.act (fun s => if s.pin.phase < 3 || s.b oChFailed (line % 64) || attempt != s.lineTries line false then s
    else (s.readReturn line data checkWord parityOk).wake)

/-- CH_WRITE_RESPONSE (R402). -/
def execChWriteResponse (line : Nat) (berr : Bool) (attempt : Nat) (s : State) : Host.Outcome State Fault Refusal :=
  s.act (fun s => if s.pin.phase < 3 || s.b oChFailed (line % 64) || attempt != s.lineTries line true then s
    else if berr then s.lineRetry line true
    else (s.setTry line true 0 false).setPortRun (line % 64) 0)

/-- CH_READ_TIMEOUT (R402). -/
def execChReadTimeout (line attempt : Nat) (s : State) : Host.Outcome State Fault Refusal :=
  s.act (fun s => if s.pin.phase < 3 || s.b oChFailed (line % 64) || attempt != s.lineTries line false then s
    else (s.lineRetry line false).wake)

/-- CH_PORT_FAIL (R355, R402): every line of the port reads as uncorrectable from now on. -/
def execChPortFail (port : Nat) (s : State) : Host.Outcome State Fault Refusal :=
  s.act (fun s => if 64 ≤ port || s.portRun port < 16 || s.b oChFailed port then s
    else (s.setB oChFailed port true).fault (FaultEv.unitOnly 0x0B true 0x24 port))

/-! The scrub (R361) -/

/-- One line scrubbed: an uncorrectable one is counted and recorded, and stays as it is. -/
def State.scrubLine (s : State) (l : Nat) : State :=
  match s.psLine l with
  | some p => if s.badLine p then s.lineFault none 0 0xFFFF 0 0 (256 * p) else s
  | none => if s.b oChFailed (l % 64) || s.io.badFree.contains l then s.stackFault l none 0 0xFFFF 0 0 0 else s

/-- A slice of the scrub: the next lines of the stack in ascending order, read. -/
def State.scrub (s : State) (n : Nat) : State :=
  let total := s.f oTierStat 63 47 * 8192
  let pos := s.f oScrubStat 47 8
  if !s.b oScrubCfg 0 || total = 0 then s
  else
    let n := min n (total - pos)
    let s := (s.chanGo ((List.range n).map (fun i => (pos + i, none))))
    let s := if s.badLines.isEmpty && s.io.badFree.isEmpty && s.reg oChFailed = 0#64 then s
      else (List.range n).foldl (fun s i => s.scrubLine (pos + i)) s
    let s := ({ s with io := { s.io with slice := (pos, n) } } : State).seqRings (cdiv n 256)
    if pos + n < total then s.setF oScrubStat 47 8 (pos + n)
    else ({ s with res := { s.res with scrubAt := s.beat } } : State).setF oScrubStat 47 8 0 |>.count oScrubStat 63 48 1

/-- The scrub's pass has overrun PERIOD (R361). -/
def State.scrubOverrun (s : State) : Bool := s.b oScrubCfg 0 && s.res.scrubAt + s.f oScrubCfg 47 16 ≤ s.beat

/-- SCRUB_SLICE (R361). -/
def execScrubSlice (lines : Nat) (s : State) : Host.Outcome State Fault Refusal := s.workNow (fun s => s.scrub lines)

/-- TELEMETRY_SLICE (R35): the manual gives telemetry no effect on any register or memory; its slots pass the rings of engine 31 (R230). -/
def execTelemetrySlice (s : State) : Host.Outcome State Fault Refusal := s.workNow (fun s => s.seqRings 1)

/-- GREY_STARVED (R36): for the scrub once its pass has overrun PERIOD (R361). -/
def execGreyStarved (cls : GreyClass) (s : State) : Host.Outcome State Fault Refusal :=
  s.workNow (fun s => if cls = .scrub && !s.scrubOverrun then s else s.starveGrey cls)

end Sys2Proof.Machine
end

