-- ==== Sys2Proof/Machine/PeerPort.lean ====
section
/-! DEFINITION. The peer ports and the Abrek link (R364, R404 to R412): frames, sequence numbers, resending, forwarding, lanes. The
contents of delivered frames reach the engine as the rows of the messages. -/
namespace Sys2Proof.Machine

/-! Lanes -/

/-- PL_STAT of a port brought in line with its lanes (R412). A port without an idle spare withdraws the deadlines that peer time enters
(R364). -/
def State.portLanes (s : State) (p : Nat) (x : PortSt) (locked : Nat) : State :=
  let n := x.lanes.length
  let used := x.lanes.contains 8
  let w := setFld (setFld (setFld (s.reg (oPlStat p)) 39 36 n) 24 16 locked) 15 12 (if used then x.spareFor.getD 0xF else 0xF)
  let s := (s.setPort p x).setReg (oPlStat p) (setBit (setBit w 2 (n < 8)) 1 used)
  if x.spare.isSome then s else s.setStale [1, 2]

/-- The bytes of lane l moved to lane k (R364, R411): k takes its place in the order of the bytes. What was counted of l is over. -/
def PortSt.moveLane (x : PortSt) (l k : Nat) (spare : Option Nat) : PortSt :=
  let off := fun (y : List (Nat × Nat)) => y.filter (fun e => e.1 != l && e.1 != k)
  { x with lanes := x.lanes.map (fun i => if i = l then k else i), spare := spare, spareFor := if k = 8 then some l else x.spareFor
           bips := off x.bips, txBips := off x.txBips, lost := off x.lost, bipErrs := off x.bipErrs }

/-- A port down (R411): the protocols that use it act as for a lost peer. Its lanes stay enabled. -/
def State.portDown (s : State) (p locked : Nat) : State :=
  let s := s.portOff p 0x1FF
  let w := setFld (setFld (setFld (setFld (s.reg (oPlStat p)) 39 36 0) 24 16 locked) 15 12 0xF) 2 0 0
  (s.setReg (oPlStat p) w).peerLost none 0 p

/-- The frames kept for some classes and sequence numbers sent again (R408). -/
def State.resend (s : State) (p : Nat) (sel : Nat × Nat → Bool) : State :=
  let ks := (s.port p).keep.filter (fun k => sel (k.frame.cls, k.frame.seq))
  (ks.foldl (fun s k =>
    let (y, tx) := (s.port p).tx p k.frame
    { s.setPort p y with out := { s.out with link := s.out.link ++ [tx] } }) s).count (oPlCnt p) 47 32 ks.length

/-- The class-0 exchange of a port that comes up (R410): INST_ID, lane map and capabilities, in a layout that the manual does not give: its bytes are
free values (assumption log 25). -/
def State.exchange (s : State) (p : Nat) : State :=
  let n := (s.port p).lanes.length
  let (y, tx) := (s.port p).tx p
    { cls := 0, src := s.me, seq := 0, dest := [], ackClass := 0xFF, ackSeq := 0, swap := 0xFF, nak := none, refuse := none
      payload := (List.range (Config.freeLen s.freeCtr % (752 * n + 1))).map (Config.freeText s.freeCtr) }
  ({ s.setPort p y with out := { s.out with link := s.out.link ++ [tx] } } : State).drawn 1

/-- A port that has come up (R404, R410, R412): its lanes enabled, the lowest 8 that locked in use, the exchange sent. SPARE_FOR of a port that starts
with lane 8 in use is the lowest lane that did not lock. -/
def State.portRise (s : State) (p peer locked : Nat) : State :=
  if 8 ≤ p || !s.b oPlCfg p then s
  else
    let s := s.portOff p 0x1FF
    let ls := (List.range 9).filter (fun l => locked.testBit l)
    if ls.length < 4 then (s.setReg (oPlStat p) 0xF000#64).setF (oPlStat p) 24 16 locked
    else
      let x := { PortSt.down with lanes := ls.take 8, spare := (ls.drop 8).head?, txen := 0x1FF
                                  spareFor := (List.range 8).find? (fun l => !locked.testBit l) }
      (((s.portLanes p x locked).setF (oPlStat p) 47 40 peer).setB (oPlStat p) 0 true).exchange p

/-- A lane has failed (R411): its traffic moves to the spare, or the port goes on with fewer lanes, or goes down. `seen` says that this
end has seen it as the receiver and asks the sender; otherwise the other end has asked, and this one sends again, also where the
lane's bytes move to the lanes that remain (assumption log 25). -/
def State.laneFail (s : State) (p l : Nat) (seen : Bool) : State :=
  let x := s.port p
  if 8 ≤ p || !s.portUp p then s
  else
    let locked := fld (s.reg (oPlStat p)) 24 16
    let locked := if locked.testBit l then locked - 2 ^ l else locked
    if x.spare = some l then s.portLanes p { x with spare := none } locked
    else if !x.lanes.contains l then s
    else
      let rest := x.lanes.filter (· != l)
      let ask := fun (s : State) => if seen then s.txLink p none none l else s.resend p (fun _ => true)
      match x.spare with
      | some k =>
        let s := s.portLanes p (x.moveLane l k none) locked
        let s := (s.count (oPlCnt p) 31 16 1).logFault (FaultEv.unitOnly 0x08 false 0 p)
        ask s
      | none => if rest.length < 4 then s.portDown p locked else ask (s.portLanes p { x with lanes := rest } locked)

/-- A lane retrained (R364): its traffic first moves to the spare, and the retrained lane becomes the spare. While the spare is in use
the port runs on the lanes that remain, and the slice leaves the lanes as they were. -/
def State.laneTrain (s : State) (p l : Nat) : State :=
  let x := s.port p
  if 8 ≤ p || 9 ≤ l || !s.portUp p then s
  else
    let locked := fld (s.reg (oPlStat p)) 24 16
    let locked := if locked.testBit l then locked else locked + 2 ^ l
    match x.spare with
    | some k =>
      if x.lanes.contains l then s.portLanes p (x.moveLane l k (some l)) locked else s
    | none =>
      if x.lanes.contains l then s.setStale [1, 2]
      else if x.lanes.length < 8 then s.portLanes p { x with lanes := x.lanes ++ [l] } locked
      else s.portLanes p { x with spare := some l } locked

/-! Frames -/

/-- A frame dropped at a port (R407, R409). -/
def State.frameDrop (s : State) (p : Nat) : State := s.count (oPlCnt p) 15 0 1

/-- A frame passed on over the ports that its other destinations lie behind, one copy for each port (R409). -/
def State.forward (s : State) (p : Nat) (f : Frame) : State :=
  let route := s.route
  let others := f.dest.eraseDups.filter (· != s.me)
  let s := (others.filter (fun d => (route d).isNone)).foldl (fun s _ => s.frameDrop p) s
  (others.filterMap route).eraseDups.foldl (fun s k =>
    if !s.portUp k then s
    else
      s.txNew k { f with dest := others.filter (fun d => route d = some k), swap := 0xFF, nak := none, refuse := none } none) s

/-- What the header and the trailer of a good frame ask of this end (R408, R411): frames acknowledged, sent again, a lane moved. -/
def State.frameCtl (s : State) (p : Nat) (f : Frame) : State :=
  let x := s.port p
  let s := (s.setPort p { x with keep := x.keep.filter (fun k =>
    !(k.frame.cls = f.ackClass && sub32 f.ackSeq k.frame.seq < 2 ^ 31)) }).mirrorHeard
  let s := match f.nak with
    | some (c, n) => s.resend p (fun g => g.1 = c && sub32 g.2 n < 2 ^ 31)
    | none => s
  if f.swap = 0xFF then s else s.laneFail p f.swap false

/-- What a frame says of the lanes that it came on (R411): markers lost in a row, BIP errors of the last 1,024 frames. -/
def PortSt.noteLanes (x : PortSt) (rx : RxFrame) : PortSt :=
  let n := x.rxCount + 1
  let lost := rx.lost.map (fun l => (l, ((x.lost.find? (·.1 == l)).map (·.2)).getD 0 + 1))
  { x with bips := rx.bips, rxCount := n, lost := lost, bipErrs := (x.bipErrs ++ rx.errs.map (fun l => (l, n))).filter (fun e => n < e.2 + 1024) }

/-- The lanes of a port that have lost 4 markers in a row, or had 8 BIP errors in 1,024 frames (R411). -/
def PortSt.badLanes (x : PortSt) : List Nat :=
  x.lanes.filter (fun l => x.lost.any (fun e => e.1 = l && 4 ≤ e.2) || 8 ≤ (x.bipErrs.filter (·.1 = l)).length)

/-- A class to acknowledge, with the highest SEQ in order: behind the classes that wait already (R408). -/
def PortSt.owing (x : PortSt) (c n : Nat) : PortSt :=
  { x with owe := if x.owe.any (·.1 = c) then x.owe.map (fun e => if e.1 = c then (c, n) else e) else x.owe ++ [(c, n)] }

/-- A frame received in sequence (R408, R409): delivered when this instance is among its destinations, passed on for the others, and
acknowledged. -/
def State.frameTake (s : State) (p : Nat) (f : Frame) : State :=
  let x := s.port p
  let s := s.setPort p ({ x with expect := setNth x.expect f.cls ((f.seq + 1) % 2 ^ 32) }.owing f.cls f.seq)
  let s := if f.dest.contains s.me then { s with out := { s.out with inbox := s.out.inbox ++ [(p, f)] } } else s
  (s.forward p f).txLink p none none 0xFF

/-- A frame as read, acted on (R405 to R409). Frames of class 0 have no place in a sequence and are not acknowledged (assumption log 25). -/
def State.frameAct (s : State) (p : Nat) (rx : RxFrame) : State :=
  let f := rx.f
  let want := nth 0 (s.port p).expect f.cls
  if !rx.good then (s.count (oPlCnt p) 63 48 1).txLink p (some (f.cls, want)) none 0xFF
  else if 5 < f.cls then (s.frameDrop p).txLink p none (some (f.seq, 0x17)) 0xFF
  else
    let s := s.frameCtl p f
    if f.cls = 0 || !s.portUp p then s
    else if f.seq = want then s.frameTake p f
    else if sub32 f.seq want < 2 ^ 31 then s.txLink p (some (f.cls, want)) none 0xFF
    else s

/-- A frame received (R405 to R409), and the lanes that it shows to have failed (R411). -/
def State.frameIn (s : State) (p : Nat) (ws : List (List (BitVec 128))) : State :=
  if 8 ≤ p || !s.portUp p then s
  else
    let rx := (s.port p).readFrame ws
    let s := (s.setPort p ((s.port p).noteLanes rx)).frameAct p rx
    (s.port p).badLanes.foldl (fun s l => s.laneFail p l true) s

/-- PEER_FRAME (R405 to R409): the words that the active lanes of a port have received. -/
def execPeerFrame (port : Nat) (lanes : List (List (BitVec 128))) (s : State) : Host.Outcome State Fault Refusal :=
  s.act (fun s => if s.pin.phase < 2 then s else s.frameIn port lanes)

/-- PEER_PORT_UP (R410). -/
def execPeerPortUp (port peer locked : Nat) (s : State) : Host.Outcome State Fault Refusal :=
  s.act (fun s => if s.pin.phase < 2 then s else s.portRise port peer locked)

/-- LANE_SWAP (R411). -/
def execLaneSwap (port lane : Nat) (s : State) : Host.Outcome State Fault Refusal :=
  s.act (fun s => if s.pin.phase < 2 then s else s.laneFail port lane true)

/-- LINK_CALIBRATION (R364). -/
def execLinkCalibration (port lane : Nat) (s : State) : Host.Outcome State Fault Refusal := s.workNow (fun s => s.laneTrain port lane)

end Sys2Proof.Machine
end

