-- ==== Sys2Proof/Machine/StreamCmds.lean ====
section
/-! DEFINITION. The rows of the streams (R235, R236, R245, R246, R248): claims ahead, tiles that complete, stops and the watchdog. -/
namespace Sys2Proof.Machine

/-- A producer's claim within some work of a command (R231, R235, R240, R241, R247): the entry at TAIL takes the tiles that follow those claimed
already, as far as a gate lets the first of them through, and the producer fills it. SNAPSHOT's reads run as its tiles complete. -/
def State.claimIn (s : State) (q : Queue) (r : Run) (seq : Nat) (w : StreamWork) (k : Nat) : Option State :=
  match w.group.find? (·.ring == k) with
  | none => none
  | some x =>
    let next := s.nextClaim w x
    if !s.mayIssue q { r with issued := false } || w.feed.tiles ≤ next || !w.gate x next then none
    else
      let s := if seq = r.seq then s.startRings q r.seq w.group else s
      let lend := x.out || !s.outStalled w.desc w.tile w.group
      let own := fun (s : State) => s.setRing k { s.ring k with
        entries := (s.ring k).entries.map (fun e => if e.desc = w.desc && e.first = next then { e with user := userId q seq } else e) }
      (s.claim k w.desc next (max 1 (min x.cap (w.feed.tiles - next))) lend).map (fun s =>
        if x.out || r.opc = 0x42 then own s else ((own s).fill q w.desc w.feed.tiles (w.feed.reads k) x).reachAhead q)

/-- A producer's claim for a command: in its descriptor and, where that has no more tiles for the ring, in the next one or the next command
(R240). -/
def State.claimFor (s : State) (q : Queue) (r : Run) (k : Nat) : Option State :=
  ((s.streamWorks q r).find? (fun (_, w) => w.group.any (fun x => x.ring = k && s.nextClaim w x < w.feed.tiles))).bind
    (fun (seq, w) => s.claimIn q r seq w k)

/-- RING_CLAIM (R235). A claim that its conditions do not allow waits and changes nothing. -/
def execRingClaim (ring : Nat) (s : State) : Host.Outcome State Fault Refusal :=
  s.workNow (fun s =>
    ([Queue.gq, .aq, .uq, .sq].findSome? (fun q => (s.run q).bind (fun r => s.claimFor q r ring))).getD s)

/-- TILE_COMPLETE (R236): the oldest tile in flight of the queue's command. -/
def execTileComplete (q : Queue) (s : State) : Host.Outcome State Fault Refusal := s.workNow (fun s => s.tileGo q)

/-! Stops -/

/-- The tile at which a producer stands: the first of the oldest entry that it has not filled. -/
def Ring.standsAt (r : Ring) (desc : Nat) : Option Nat :=
  (r.entries.find? (fun e => e.desc = desc && !e.full)).map (fun e => e.first + e.filled)

/-- A producer's read within some work of a command has met a Crimson page (R245, R253): the other producers of the group finish what they are filling,
this one abandons its entry, and its stop is recorded. It has one stop at a time. The pages stay requested, which holds their pins. -/
def State.stopIn (s : State) (q : Queue) (r : Run) (k : Nat) (t : TileId) (page : Nat) (seq : Nat) (w : StreamWork) : Option State :=
  let s' := s.fillAll q w.desc w.feed w.group
  let met := fun (x : GRing) => !x.out && engineOf x.ring = k && (match (s'.ring x.ring).standsAt w.desc with
    | some i => w.name i = t && (s.pagesOf (w.feed.reads x.ring i)).contains page
    | none => false)
  match w.group.find? met with
  | none => none
  | some x =>
    if (s.page page).st ≠ .fetching || s.stops.any (fun y => y.engine = k && y.q = q) then none
    else
      let y := s'.ring x.ring
      let i := (y.standsAt w.desc).getD w.tile
      let keep := y.entries.filter (fun e => !(e.taken = 0 && !e.full && before w.desc i e.desc (e.first + e.count)))
      let s := s'.moveRing x.ring { y with entries := keep }
      let pos := setFld (setFld (setFld (setFld 0#64 63 48 t.desc) 47 16 t.tile) 15 14 (qIdx q)) 3 0 1
      let s := (s.setReg (oStrmStopPos k) pos).setReg (oStrmStopPage k) (setFld 0#64 47 21 (pageAddr page / 2 ^ 21))
      let here := seq = r.seq && ((s.streamWork r).map (·.desc)) = some w.desc && i ≤ w.tile
      let (d, n) := if here then (r.desc, r.tile) else (w.desc, i)
      some { s with stops := s.stops ++ [⟨k, q, seq, d, n, page⟩] }

/-- A stop in whatever the producers of a queue's command work on, now or ahead (R240, R245). -/
def State.streamStop (s : State) (q : Queue) (k : Nat) (t : TileId) (page : Nat) : State :=
  match s.run q with
  | none => s
  | some r => ((s.streamWorks q r).findSome? (fun (seq, w) => s.stopIn q r k t page seq w)).getD s

/-- STREAM_STOP (R245). -/
def execStreamStop (q : Queue) (engine : Nat) (t : TileId) (page : Nat) (s : State) : Host.Outcome State Fault Refusal :=
  s.workNow (fun s => s.streamStop q engine t page)

/-- The stops of an engine whose pages are no longer FETCHING end (R246): resumed with the partner's data, or skipping. -/
def State.stopEnd (s : State) (k : Nat) : State :=
  let closing := s.stops.filter (fun x => x.engine = k && (s.page x.page).st ≠ .fetching)
  closing.foldl (fun s x =>
    let bad := (s.page x.page).st = .poisoned
    let s := { s with stops := s.stops.erase x }
    let s := s.setF (oStrmStopPos k) 3 0 (if bad then 3 else 2)
    match s.run x.q with
    | some r => if r.seq = x.seq && !bad then s.setRun x.q (some { r with t := { r.t with recovered := true } }) else s
    | none => s) s

/-- STREAM_STOP_END (R246). -/
def execStreamStopEnd (engine : Nat) (s : State) : Host.Outcome State Fault Refusal := s.workNow (fun s => s.stopEnd engine)

/-! The watchdog -/

/-- A command ended ABORTED in its SEQ position (R82, R248): what it has in flight is discarded. -/
def State.abortRun (s : State) (q : Queue) (r : Run) : State :=
  let s := { s with jobs := s.jobs.filter (fun j => !(j.q = q && j.seq = r.seq)) }
  let r := { r with aborting := true }
  let s := if r.opc = 0x40 || r.opc = 0x41 then
      { s.setSent [] s.cyan.ring.length with cyan := { (s.setSent [] s.cyan.ring.length).cyan with bound := none, receivers := [], reshardOk := false } }
    else if r.opc = 0x43 then { s with res := { s.res with restore := none } }
    else s
  let own := r.opc = 0x22 || r.opc = 0x40 || r.opc = 0x41 || r.opc = 0x43
  (if own then s.complete q r 0x2F [] else s.endRun r).settleHead q

/-- The watchdog trips (R248, R250): a stream with work whose pointers have not moved at two boundaries. -/
def State.watchdog (s : State) (k : Nat) : State :=
  let x := s.ring (s.lastRing k)
  let q := x.queue
  match s.run q with
  | none => s
  | some r =>
    if x.stalls < 2 || x.user ≠ userId q r.seq then s
    else
      let w := setBit (setFld (setFld (setFld (setFld 0#64 55 48 k) 47 44 (s.streamState k)) 43 42 (qIdx q)) 31 0 r.seq) 63 true
      let s := (s.setReg oStrmWdog w).setReg oStrmWdogBeat (setFld 0#64 47 0 s.beat)
      (s.fault ⟨0x10, true, 0x2F, 0, some q, r.seq, 0xFFFF, 0, 0⟩).abortRun q r

/-- STREAM_WATCHDOG (R248). -/
def execStreamWatchdog (engine : Nat) (s : State) : Host.Outcome State Fault Refusal := s.workNow (fun s => s.watchdog engine)

end Sys2Proof.Machine
end

