-- ==== Sys2Proof/Machine/FaultCmds.lean ====
section
/-! DEFINITION. Faults of lanes, rows, staging SRAM and the sequencer (R135 to R143, R223, R224, R227, R354 to R356, R362, R363), Amber
episodes (R367 to R369, R444) and the temperature (R437 to R440). -/
namespace Sys2Proof.Machine

/-! Spare units -/

/-- The units in service that carry no logical number: the spare pool, lowest first (R138, R224). -/
def pool (n : Nat) (map retired : List Nat) : List Nat := (List.range n).filter (fun p => !map.contains p && !retired.contains p)

/-- The place of a unit in a map. -/
def placeOf (map : List Nat) (p : Nat) : Option Nat := (List.range map.length).find? (fun i => map[i]? == some p)

/-- Logical number i given to the lowest unit of the pool; with none left the highest octet of numbers goes out of use and its units
join the pool first, unless the number lies in that octet (R138, R224). The first argument bounds the octets. -/
def refill (n : Nat) (retired : List Nat) (i : Nat) : Nat → List Nat → List Nat
  | 0, _ => []
  | k + 1, map =>
    match (pool n map retired).head? with
    | some q => setNth map i q
    | none =>
      let keep := map.length - 8
      if keep < 8 then [] else if keep ≤ i then map.take keep else refill n retired i k (map.take keep)

/-- The logical map of n units after unit p has retired, `retired` with it (R138, R224). -/
def retireMap (n : Nat) (map retired : List Nat) (p : Nat) : List Nat :=
  match placeOf map p with
  | none => map
  | some i => refill n retired i (map.length + 1) map

/-- The physical numbers that the bits of some registers name. -/
def State.retiredOf (s : State) (o : Nat → Nat) (n : Nat) : List Nat := (List.range n).filter (fun p => s.b (o (p / 64)) (p % 64))

/-- Physical lanes retired. -/
def State.lanesOut (s : State) : List Nat := s.retiredOf oFabRetired 264
/-- Physical rows retired. -/
def State.rowsOut (s : State) : List Nat := s.retiredOf oMxRetired 132

/-- The marks of a unit that still count, with a new one (R137, R224): those less than `window` beats old. -/
def State.marks (s : State) (ms : List ErrMark) (p window : Nat) : List ErrMark :=
  ms.filter (fun m => s.beat < m.beat + window) ++ [⟨p, s.beat⟩]

/-- Errors of a unit among some marks. -/
def errCount (ms : List ErrMark) (p : Nat) : Nat := (ms.filter (fun m => m.phys = p)).length

/-- The count rule (R137, R224): the limit reached, unless sparing by count is off. -/
def countRule (cfg : Word) (errs : Nat) : Bool := !bit cfg 16 && max 1 (fld cfg 31 24) ≤ errs

/-- A fault that a unit of some number masked, in the log alone (R365). -/
def State.masked (s : State) (cls unit : Nat) : State := s.logFault (FaultEv.unitOnly cls false 0 unit)

/-- The running commands that some condition selects end ABORTED in their SEQ positions. -/
def State.abortWhere (s : State) (sel : Run → Bool) : State :=
  [Queue.gq, .aq, .uq, .sq].foldl (fun s q => match s.run q with
    | some r => if sel r then s.abortRun q r else s
    | none => s) s

/-! Fabric lanes -/

/-- The lanes in force as FAB_STAT reports them (R141). -/
def State.laneStat (s : State) : State :=
  let n := s.fab.laneMap.length
  ((s.setF oFabStat 31 24 (pool 264 s.fab.laneMap s.lanesOut).length).setF oFabStat 23 12 n).setB oFabStat 2 (n < 256)

/-- A physical lane retired (R137, R138). A spare that takes its number is loaded before the fabric issues again. -/
def State.laneRetire (s : State) (p : Nat) : State :=
  let s := s.setB (oFabRetired (p / 64)) (p % 64) true
  let old := s.fab.laneMap
  let map := retireMap 264 old s.lanesOut p
  let s := { s with fab := { s.fab with laneMap := map, laneLoad := s.fab.laneLoad || (map.any (fun x => !old.contains x)) ||
    (map.length < old.length && map != old.take map.length) } }
  let s := (s.laneStat.setB oFabStat 1 true).masked 0x05 p
  let s := if map.length < old.length then s.setStale [0, 2] else s
  if map.isEmpty && !old.isEmpty then ({ s with fab := { s.fab with laneLoad := false } } : State).abortWhere (fun r => needsFabric r.opc) else s

/-- A write of FAB_SWAP (R143, R462). -/
def State.fabSwap (s : State) (w : Word) : State :=
  let p := fld w 8 0
  if !bit w 63 || s.pin.halted || 264 ≤ p || s.lanesOut.contains p then s else s.laneRetire p

/-- Tiles replayed (R136): counted in the command that owns them. -/
def State.replayed (s : State) (q : Queue) (n : Nat) : State :=
  match s.run q with
  | some r => if n = 0 then s else s.setRun q (some { r with t := { r.t with replayed := r.t.replayed + n, recovered := true } })
  | none => s

/-- The tiles of a queue's command that pass through fabric lanes and are in flight. -/
def State.fabricTiles (s : State) (q : Queue) : Nat :=
  match s.run q with
  | some r => if needsFabric r.opc then (s.jobsOf q r.seq).length else 0
  | none => 0

/-- The newest n tiles of a queue's command read again from their input slots (R136, R233): their entries are READING until they complete. DESIGN CHOICE
(assumption log 40): each enters the lanes again at the lane that its first position entered before. -/
def State.readAgain (s : State) (q : Queue) (n : Nat) : State :=
  match s.run q with
  | none => s
  | some r =>
    let mine := s.jobsOf q r.seq
    let sel := mine.drop (mine.length - n)
    { s with jobs := s.jobs.map (fun (j : Job) => if sel.contains j then { j with again := true } else j) }

/-- Tiles of a queue replayed by the fabric, at most those in flight there: counted, and read again (R136, R141). -/
def State.fabricReplay (s : State) (q : Queue) (n : Nat) : State :=
  let n := min n (s.fabricTiles q)
  (((s.readAgain q n).replayed q n).count oFabStat 63 32 n).life 7 n

/-- The tiles in flight at a lane error replayed from their input slots (R136). -/
def State.replayFlight (s : State) (fl : InFlight) : State :=
  [(Queue.gq, fl.gq), (.aq, fl.aq), (.uq, fl.uq), (.sq, fl.sq)].foldl (fun s (q, n) => s.fabricReplay q n) s

/-- Tiles that are read again enter the lanes that are left, each at its lane modulo L (R110, R138; assumption log 40). -/
def State.relane (s : State) : State :=
  { s with jobs := s.jobs.map (fun (j : Job) => if j.again then { j with lane := j.lane % s.lanes, lanes := s.lanes } else j) }

/-- A lane error (R135 to R138, R142). A lane of the pool only draws random bits, so its generator's parity alone is checked. -/
def State.laneErr (s : State) (p kind cell : Nat) (fl : InFlight) : State :=
  let place := placeOf s.fab.laneMap p
  let pooled := place.isNone
  if 264 ≤ p || s.lanesOut.contains p || kind = 0 || 6 < kind || (pooled && kind != 4) then s
  else
    let ms := s.marks s.fab.laneErrs p (s.f oFabCfg 15 0)
    let errs := errCount ms p
    let s := { s with fab := { s.fab with laneErrs := ms } }
    let w := setFld (setFld (setFld (setFld (setFld (setFld 0#64 47 40 kind) 39 32 cell) 25 25 pooled.toNat) 24 16 p) 15 8 (min errs 255))
      7 0 (place.getD 0)
    let s := ((s.setReg oFabErr w).setReg oFabErrBeat (setFld 0#64 47 0 s.beat)).setB oFabStat 0 true
    let s := s.masked 0x04 p
    let s := if pooled then s else s.replayFlight fl
    if countRule (s.reg oFabCfg) errs || (!pooled && (kind = 2 || kind = 6)) then (s.laneRetire p).relane else s

/-- LANE_ERROR (R136). -/
def execLaneError (phys kind cell : Nat) (flight : InFlight) (s : State) : Host.Outcome State Fault Refusal :=
  s.workNow (fun s => s.laneErr phys kind cell flight)

/-- LANE_SPARE_LOADED (R138): issue resumes. -/
def execLaneSpareLoaded (s : State) : Host.Outcome State Fault Refusal :=
  s.workNow (fun s => { s with fab := { s.fab with laneLoad := false } })

/-- FAB_SWAP: a write of FAB_SWAP (R143). -/
def execFabSwap (value : Word) (s : State) : Host.Outcome State Fault Refusal := s.portNow (fun s => s.fabSwap value)

/-! Matrix rows -/

/-- The rows in force as MX_STAT reports them (R226). -/
def State.rowStat (s : State) : State :=
  let n := s.fab.rowMap.length
  ((s.setF oMxStat 31 24 (pool 132 s.fab.rowMap s.rowsOut).length).setF oMxStat 23 12 n).setB oMxStat 2 (n < 128)

/-- A physical row retired (R224). -/
def State.rowRetire (s : State) (p : Nat) : State :=
  let s := s.setB (oMxRetired (p / 64)) (p % 64) true
  let old := s.fab.rowMap
  let map := retireMap 132 old s.rowsOut p
  let s := { s with fab := { s.fab with rowMap := map } }
  let s := (s.rowStat.setB oMxStat 1 true).masked 0x07 p
  let s := if map.length < old.length then s.setStale [0] else s
  if map.isEmpty && !old.isEmpty then s.abortWhere (fun r => r.opc = 0x32) else s

/-- A write of MX_SWAP (R227, R462). -/
def State.mxSwap (s : State) (w : Word) : State :=
  let p := fld w 7 0
  if !bit w 63 || s.pin.halted || 132 ≤ p || s.rowsOut.contains p then s else s.rowRetire p

/-- The panel in flight computed again from its checkpoint: the oldest block of the MATRIX that runs (R223). -/
def State.panelAgain (s : State) : State :=
  match (s.run .uq).bind (fun r => (s.jobsOf .uq r.seq).head?) with
  | some j => { s with jobs := s.jobs.map (fun (x : Job) => if x = j then { x with again := true } else x) }
  | none => s

/-- A row error (R223, R224, R227): the panel in flight is replayed from its last checkpoint. -/
def State.rowErr (s : State) (p kind : Nat) : State :=
  let place := placeOf s.fab.rowMap p
  let pooled := place.isNone
  if 132 ≤ p || s.rowsOut.contains p || kind = 0 || 4 < kind then s
  else
    let ms := s.marks s.fab.rowErrs p (s.f oMxCfg 15 0)
    let errs := errCount ms p
    let s := { s with fab := { s.fab with rowErrs := ms } }
    let prog := match s.run .uq with | some r => if r.opc = 0x32 then r.fld 12 1 else 0 | none => 0
    let busy := match s.run .uq with | some r => r.opc == 0x32 && !(s.jobsOf .uq r.seq).isEmpty | none => false
    let w := setFld (setFld (setFld (setFld (setFld 0#64 47 40 kind) 39 32 prog) 23 16 p) 15 8 (min errs 255)) 7 0 (place.getD 0)
    let s := ((s.setReg oMxErr w).setReg oMxErrBeat (setFld 0#64 47 0 s.beat)).setB oMxStat 0 true
    let s := s.masked 0x06 p
    let s := if busy && !pooled then (((s.panelAgain).replayed .uq 1).count oMxStat 63 32 1).life 7 1 else s
    if countRule (s.reg oMxCfg) errs || (!pooled && 2 ≤ kind) then s.rowRetire p else s

/-- ROW_ERROR (R223). -/
def execRowError (phys kind : Nat) (s : State) : Host.Outcome State Fault Refusal := s.workNow (fun s => s.rowErr phys kind)

/-- MX_SWAP: a write of MX_SWAP (R227). -/
def execMxSwap (value : Word) (s : State) : Host.Outcome State Fault Refusal := s.portNow (fun s => s.mxSwap value)

/-! Staging SRAM -/

/-- The spare banks still in service, lowest first (R363). -/
def State.bankPool (s : State) : List Nat := (List.range 66).filter (fun p => !s.res.sram.contains (some p) && !s.res.sramOut.contains p)

/-- The highest logical bank of the bit-stream ring area that is in use. -/
def State.topRingBank (s : State) : Option Nat :=
  ((List.range 48).reverse).find? (fun i => match s.res.sram[i]? with | some (some _) => true | _ => false)

/-- The physical bank of each logical bank after physical bank p has retired (R363), the pool being what it is. -/
def State.bankMap (s : State) (p : Nat) : List (Option Nat) :=
  match (List.range 64).find? (fun i => s.res.sram[i]? == some (some p)) with
  | none => s.res.sram
  | some i =>
    match s.bankPool.head?, s.topRingBank with
    | some q, _ => setNth s.res.sram i (some q)
    | none, some h => if h = i then setNth s.res.sram i none else setNth (setNth s.res.sram i (nth none s.res.sram h)) h none
    | none, none => setNth s.res.sram i none

/-- SRAM_STAT's account of the banks (R363). -/
def State.bankStat (s : State) : State :=
  (s.setF oSramStat 31 24 s.bankPool.length).setB oSramStat 2 (s.res.sram.contains none)

/-- A physical bank put out of service. -/
def State.bankOut (s : State) (p : Nat) : State :=
  let s := { s with res := { s.res with sramOut := s.res.sramOut ++ [p] } }
  ({ s with res := { s.res with sram := s.bankMap p } } : State).bankStat

/-- A physical bank retired (R363): its users pause while it is copied; variants whose rings no longer have their SRAM end. -/
def State.bankRetire (s : State) (p : Nat) : State :=
  if 66 ≤ p || s.res.sramOut.contains p then s
  else
    let place := (List.range 64).find? (fun i => s.res.sram[i]? == some (some p))
    let lost := s.bankPool.isEmpty && place.isSome
    let s := ((s.bankOut p).setB oSramStat 1 true).setF oSramStat 15 8 p
    let s := s.masked 0x03 p
    let s := match place with
      | some i => if (nth none s.res.sram i).isSome then { s with res := { s.res with sramCopy := s.res.sramCopy ++ [i] } } else s
      | none => s
    if lost then
      (s.setStale [0]).abortWhere (fun r => (r.opc = 0x30 || r.opc = 0x31) && s.variantDown (s.desc r.desc).variant)
    else s

/-- The retirement rule applied to a bank in service (R363): a corrected word is counted, logged and held against CE_LIMIT within CE_WINDOW; a word that
was refilled and has failed again retires its bank. -/
def State.bankRule (s : State) (e : SramEvent) : State :=
  match e with
  | .corrected p =>
    if !s.res.sram.contains (some p) then s
    else
      let ms := s.marks s.res.sramErrs p (s.f oSramCfg 15 0)
      let s := (({ s with res := { s.res with sramErrs := ms } } : State).count oSramStat 63 32 1).life 6 1
      let s := s.masked 0x01 p
      if countRule (s.reg oSramCfg) (errCount ms p) then s.bankRetire p else s
  | .failedAgain a => if s.res.sram.contains (some a.bank) && s.res.refilled.contains a then s.bankRetire a.bank else s

/-- SRAM_BANK_RETIRE (R355, R363). -/
def execSramBankRetire (event : SramEvent) (s : State) : Host.Outcome State Fault Refusal := s.workNow (fun s => s.bankRule event)

/-- SRAM_BANK_COPY_DONE (R363): the users of the bank resume. -/
def execSramBankCopyDone (s : State) : Host.Outcome State Fault Refusal :=
  s.workNow (fun s => { s with res := { s.res with sramCopy := s.res.sramCopy.tail } })

/-- A command that goes on after its data were made good (R82). -/
def State.madeGood (s : State) (q : Queue) : State :=
  match s.run q with
  | some r => s.setRun q (some { r with t := { r.t with recovered := true } })
  | none => s

/-- The rings that lie in a logical bank (R157, R230; assumption log 14). -/
def State.ringsIn (s : State) (i : Nat) : List Nat :=
  if i < 48 then (bankEntries s.fab.resident (i * 2 ^ 20) (i * 2 ^ 20 + 2 ^ 20)).map (·.engine)
  else if i < 56 then []
  else (serviceAt.filter (fun (_, at_, n) => overlap at_ n ((i - 56) * 1024) 1024)).flatMap (fun (e, _, _) => s.ringsOf e)

/-- A slot that a producer has filled refilled in place (R362): the oldest one of a queue's command that the consumer has not finished, in the bank where
one lies there. The consumer takes no further position from it until its producer has read the tiles again. -/
def State.refillSlot (s : State) (q : Queue) (bank : Nat) : State :=
  match s.run q with
  | none => s
  | some r =>
    let full := fun (e : RingEntry) => e.user = userId q r.seq && e.full && e.taken < e.count
    let ks := ((s.streamWorks q r).flatMap (fun (_, w) => (w.group.filter (fun x => !x.out)).map (·.ring))).filter (fun k => (s.ring k).entries.any full)
    let here := (((List.range 64).find? (fun i => s.res.sram[i]? == some (some bank))).map s.ringsIn).getD []
    match (ks.filter here.contains ++ ks).head? with
    | none => s
    | some k =>
      let y := s.ring k
      match y.entries.find? full with
      | none => s
      | some e => s.setRing k { y with entries := y.entries.map (fun x => if x = e then { x with filled := x.taken, again := true } else x) }

/-- A two-bit error of a staging word (R362): a filled slot is refilled, a slot of the fabric computed again from its input slots, a
word of matrix staging handled as a row error. -/
def State.doubleBit (s : State) (a : SramAddr) (word : SramWord) : State :=
  if !s.res.sram.contains (some a.bank) then s
  else
    let s := s.setB oSramStat 0 true
    match word with
    | .ringSlot q =>
      let s := (((s.refillSlot q a.bank).count oSramStat 23 16 1).masked 0x02 a.bank).life 7 1
      ({ s with res := { s.res with refilled := s.res.refilled ++ [a] } } : State).madeGood q
    | .fabricOut q => (s.masked 0x02 a.bank).fabricReplay q 1
    | .matrixStaging row => s.rowErr row 2

/-- SRAM_DOUBLE_BIT (R362). -/
def execSramDoubleBit (place : SramAddr) (word : SramWord) (s : State) : Host.Outcome State Fault Refusal :=
  s.workNow (fun s => s.doubleBit place word)

/-! The sequencer -/

/-- SEQUENCER_HALT (R356, R469): only a reset leads out of it, and DBG_SEQ.PC holds until then. -/
def execSequencerHalt (s : State) : Host.Outcome State Fault Refusal :=
  s.act (fun s => if s.pin.halted then s
    else (({ s with pin := { s.pin with halted := true } }.setF oDbgSeq 15 0 (Config.freePc s.freeCtr)).drawn 1).fault
      (FaultEv.unitOnly 0x14 true 0 0))

/-- SEQUENCER_CORRECTED (R355): in the fault log alone. -/
def execSequencerCorrected (s : State) : Host.Outcome State Fault Refusal :=
  s.act (fun s => if s.pin.halted then s else s.masked 0x13 0)

/-! Amber -/

/-- The supply warning rises (R368): a new episode, or an episode whose hold ends. -/
def State.warnUp (s : State) : State :=
  let s := { s with pin := { s.pin with warn := true } }
  let old := s.res.amberPh
  let s := { s with res := { s.res with amberPh := 1 } }
  if old != 0 then s
  else
    let s := ((s.setB oAmberStat 1 true).setB oAmberStat 0 true).count oAmberStat 63 48 1
    let s := (s.setReg oAmberBeat (setFld (setFld 0#64 63 48 1) 47 0 s.beat)).life 3 1
    s.logFault (FaultEv.unitOnly 0x12 false 0 0)

/-- The supply warning falls: the hold begins. -/
def State.warnDown (s : State) : State :=
  let s := { s with pin := { s.pin with warn := false } }
  if s.res.amberPh = 1 then { s with res := { s.res with amberPh := 2 } } else s

/-- The end of an episode (R368, R369): issue resumes, that to the cold port with it. It was long when more whole beats than 250 µs hold have passed. -/
def State.amberOver (s : State) (verified replayed : Nat) : State :=
  let took := (s.beat - s.f oAmberBeat 47 0) * (s.f oBeatCfg 6 0 * 1024)
  let s := if 250 * s.f oClkCfg 10 0 < took then s.setB oAmberStat 2 true else s
  let s := ((s.setB oAmberStat 1 false).setF oAmberStat 31 16 (min verified 65535)).setF oAmberStat 47 32 (min replayed 65535)
  ({ s with res := { s.res with amberPh := 0, amberLog := [] } } : State).drainAll

/-- The end of the hold: verification begins; before READY there is nothing to verify (R444). -/
def State.holdEnd (s : State) : State :=
  if s.res.amberPh != 2 then s
  else if s.pin.phase < 6 then s.amberOver 0 0
  else { s with res := { s.res with amberPh := 3 } }

/-- The end of verification (R369): `back` gives the digests of what was read back for some entries of the write log, by their places from the
oldest on; the others read back as they were logged. A write whose digest differs, or that meets an uncorrectable line, fails. -/
def State.verifyDone (s : State) (back : List (Nat × List (BitVec 32))) : State :=
  if s.res.amberPh != 3 then s
  else
    let log := s.res.amberLog
    let verified := min 8192 (log.foldl (fun n e => n + e.writes) 0)
    let bad := ((List.zip (List.range log.length) log).filter (fun (i, e) =>
      back.any (fun b => b.1 = i && b.2 != e.digests) || e.ranges.any (fun (a, n) => s.lineBad a n))).map (·.2)
    let s := bad.foldl (fun s e => s.replayWrite e) s
    s.amberOver verified (bad.filter LogWrite.again).length

/-- SUPPLY_WARN_ASSERT (R367, R368). The level of the pin is kept in reset too: phase 2 finds it. -/
def execSupplyWarnAssert (s : State) : Host.Outcome State Fault Refusal :=
  s.done (fun s => if s.pin.phase < 2 || s.pin.halted then { s with pin := { s.pin with warn := true } } else s.settle.warnUp)

/-- SUPPLY_WARN_CLEAR (R368). As in SUPPLY_WARN_ASSERT, the level is kept in reset. -/
def execSupplyWarnClear (s : State) : Host.Outcome State Fault Refusal :=
  s.done (fun s => if s.pin.phase < 2 || s.pin.halted then { s with pin := { s.pin with warn := false } } else s.settle.warnDown)

/-- AMBER_HOLD_EXPIRE (R368, R369, R444). -/
def execAmberHoldExpire (s : State) : Host.Outcome State Fault Refusal :=
  s.act (fun s => if s.pin.halted then s else s.settle.holdEnd)

/-- AMBER_VERIFY_DONE (R369). -/
def execAmberVerifyDone (back : List (Nat × List (BitVec 32))) (s : State) : Host.Outcome State Fault Refusal :=
  s.workNow (fun s => s.verifyDone back)

/-! Temperature -/

/-- A temperature code accepted (R437, R439, R440). -/
def State.tempTake (s : State) (c : Nat) : State :=
  let s := { s with pin := { s.pin with temp := some c } }
  ((s.setF oTempStat 9 0 c).setF oTempStat 25 16 (max c (s.f oTempStat 25 16))).setB oPwrStat 2 false |>.critNow

/-- TEMP_SAMPLE (R437). A code has ten bits. -/
def execTempSample (code : Nat) (s : State) : Host.Outcome State Fault Refusal :=
  s.act (fun s => if s.pin.phase < 2 || 1024 ≤ code then s else s.settle.tempTake code)

/-- TEMP_INVALID (R437): no temperature is current. -/
def execTempInvalid (s : State) : Host.Outcome State Fault Refusal :=
  s.act (fun s => if s.pin.phase < 2 then s
    else (({ s.settle with pin := { s.settle.pin with temp := none } } : State).setB oPwrStat 4 false).setB oPwrStat 2 true)

end Sys2Proof.Machine
end

