-- ==== Sys2Proof/Machine/Image.lean ====
section
/-! DEFINITION. The configuration image (R446 to R454, R460): its sections, the order of its validation, how it is applied. -/
namespace Sys2Proof.Machine

/-- A section of an image (R147, R449): its index, type, OPTIONAL flag, COUNT and payload. -/
structure ImgSec where
  idx      : Nat
  typ      : Nat
  optional : Bool
  count    : Nat
  body     : List Byte
  deriving DecidableEq, Repr

/-- The sections of n bytes back to back, and the index at which a section's length does not agree with what is there. -/
def imgSections : Nat → Nat → List Byte → Nat → List ImgSec × Option Nat
  | 0, i, _, n => ([], if n = 0 then none else some i)
  | k + 1, i, bs, n =>
    if n = 0 then ([], none)
    else
      let len := leAt bs 4 4
      if n < 16 || len < 16 || len % 8 != 0 || n < len then ([], some i)
      else
        let x : ImgSec := ⟨i, leAt bs 0 2, leAt bs 2 2 % 2 = 1, leAt bs 8 4, (bs.take len).drop 16⟩
        let (t, e) := imgSections k (i + 1) (bs.drop len) (n - len)
        (x :: t, e)

/-- Word i of a payload. -/
def imgWord (bs : List Byte) (i : Nat) : Word := BitVec.ofNat 64 (leAt bs (8 * i) 8)

/-- The records of a REGISTERS payload: offset word and value (R449). -/
def imgRecords (x : ImgSec) : List (Word × Word) := (List.range x.count).map (fun i => (imgWord x.body (2 * i), imgWord x.body (2 * i + 1)))

/-- STACK_PAGES of a stack of the largest size (R453). -/
def stackMax : Nat := 0x10000

/-- STACK_PAGES that the sections give (R453). -/
def imgStack (xs : List ImgSec) : Nat :=
  match xs.find? (fun x => x.typ = 5) with
  | some x => fld (imgWord x.body 1) 16 0
  | none => stackMax

/-- A value breaks the range rule that CHECK applies to its register alone (R451): R32, R38, R106, R277, R305, R350, R351, R435. -/
def imgRange (stack o : Nat) (w : Word) : Bool :=
  let kx : KX := w.setWidth 34
  if o = oProfileShares then
    let grey := fld w 47 40
    fld w 7 0 + fld w 15 8 + fld w 23 16 + fld w 31 24 + fld w 39 32 + grey != 256 || grey < 4 || 64 < grey
  else if o = oProfileWork then bit w 17 == bit w 16
  else if o = oNumCfg then (bit w 7 && bit w 6) || fld w 1 0 = 3
  else if o = oGradCfg then !(kxLt kxZero kx && kxLe kx kxOne)
  else if o = oGradClip then kxIsNaN kx || kxLt kx kxZero || fld w 41 34 < 1 || 126 < fld w 41 34
  else if o = oMcCfg then fld w 3 0 = 0
  else if o = oTierMap then fld w 48 32 < 0x600 || stack < fld w 48 32
  else if o = oFlashCfg then fld w 43 32 = 0
  else if o = oPwrCfg then !(fld w 41 32 < fld w 57 48) || fld w 31 24 = 0
  else false

/-- A record breaks R450 or a range rule. -/
def recordBad (stack : Nat) (r : Word × Word) : Bool :=
  let o := r.1.toNat
  !(o < 2 ^ 20 && o % 8 = 0) || !(isStaged o || inFam o 0x7100 8 32) || (r.2 &&& ~~~(stMask o ||| rwMask o)) != 0#64 ||
    imgRange stack o r.2

/-- The content of a section is at fault (R449 to R451); `seen` are the types before it. -/
def sectionBad (xs : List ImgSec) (seen : List Nat) (x : ImgSec) : Bool :=
  if x.typ = 0 || 6 < x.typ || seen.contains x.typ then !x.optional
  else if x.typ = 1 then x.body.length != 16 * x.count || (imgRecords x).any (recordBad (imgStack xs))
  else if x.typ = 2 then x.body.length != roundUp x.count 8
  else if x.typ = 3 then x.body.length != 256
  else if x.typ = 4 then x.body.length != 80
  else if x.typ = 5 then
    let g := imgWord x.body 0
    let mhz := fld (imgWord x.body 2) 10 0
    x.body.length != 24 || mhz < 800 || 1400 < mhz || stackMax < fld (imgWord x.body 1) 16 0 || 8 < fld g 63 60 || fld g 59 56 = 0 ||
      8 < fld g 59 56 || fld g 55 54 = 3
  else
    let n := leAt x.body 0 2
    x.body.length != 8 + 8 * n || leAt x.body 0 8 != n || Config.patchArea < n

/-- The first section at fault, in file order. -/
def firstBad (xs : List ImgSec) : List Nat → List ImgSec → Option Nat
  | _, [] => none
  | seen, x :: t => if sectionBad xs seen x then some x.idx else firstBad xs (seen ++ [x.typ]) t

/-- An image that has been validated. -/
structure Image where
  secs   : List ImgSec
  id     : Word
  feed   : Option Nat
  master : Bool
  deriving DecidableEq, Repr

/-- Validation of an image (R447 to R451): the code of RESET_STAT.IMAGE and WHERE, or the image. A fault of the header reads as 0xFF
(assumption log 10). -/
def checkImage (bs : List Byte) (inst : Nat) : Nat × Nat ⊕ Image :=
  let len := leAt bs 8 4
  if leAt bs 0 4 != 0x31495A4B || leAt bs 4 2 != 1 || len < 64 || len % 8 != 0 || 2 ^ 20 < len || bs.length < len then .inl (2, 0xFF)
  else if leAt bs 12 4 != (crc32 ((bs.take len).drop 16)).toNat then .inl (2, 0xFF)
  else if leAt bs 16 2 != 3 || 1 < leAt bs 18 2 then .inl (3, 0xFF)
  else if leAt bs 20 2 != 0xFFFF && leAt bs 20 2 != inst then .inl (5, 0xFF)
  else
    let (xs, e) := imgSections (len / 16 + 1) 0 (bs.drop 64) (len - 64)
    match firstBad xs [] xs, e with
    | some i, _ => .inl (4, i)
    | none, some i => .inl (4, i)
    | none, none =>
      if xs.length != leAt bs 6 2 then .inl (4, 0xFF)
      else .inr ⟨xs, BitVec.ofNat 64 (leAt bs 24 8), if leAt bs 22 1 = 0xFF then none else some (leAt bs 22 1 % 16), leAt bs 23 1 % 2 = 1⟩

/-- The section of a type that an image gives: the first one. -/
def Image.sec (m : Image) (typ : Nat) : Option ImgSec := m.secs.find? (fun x => x.typ = typ)

/-! Application -/

/-- A value that the image gives a register: the live and the staged copy (R452). -/
def State.bootReg (s : State) (o : Nat) (w : Word) : State :=
  let m := stMask o ||| rwMask o
  let s := s.setReg o ((w &&& m) ||| (s.reg o &&& ~~~m))
  if isStaged o then s.setStg o ((w &&& m) ||| (s.stg o &&& ~~~m)) else s

/-- A field of both copies of a staged register set. -/
def State.bootF (s : State) (o hi lo v : Nat) : State := (s.setF o hi lo v).setStg o (setFld (s.stg o) hi lo v)

/-- An image applied (R449, R452, R453, R460). Its bit-stream and what it retires wait for phase 5. -/
def State.bootImage (s : State) (m : Image) : State :=
  let s := (s.setReg oImageId m.id).bootF oBeatCfg 16 16 m.master.toNat
  let s := s.bootF oSnapCfg 3 0 (m.feed.getD (s.pin.straps.feedId % 16))
  let s := match m.sec 5 with
    | some x =>
      let pages := fld (imgWord x.body 1) 16 0
      let s := (s.setReg oFlashGeom (imgWord x.body 0 &&& ~~~(fmask 29 0))).setReg oClkCfg (imgWord x.body 2 &&& (fmask 16 16 ||| fmask 10 0))
      (s.setF oTierStat 63 47 pages).bootF oTierMap 48 32 pages
    | none => s
  let s := match m.sec 1 with
    | some x => (imgRecords x).foldl (fun s r => s.bootReg r.1.toNat r.2) s
    | none => s
  let s := match m.sec 3 with | some x => s.store 0x3A000000 x.body | none => s
  let s := match m.sec 4 with
    | some x =>
      let s := (List.range 5).foldl (fun s k => s.setReg (oFabRetired k) (imgWord x.body k &&& (if k = 4 then fmask 7 0 else fmask 63 0))) s
      let s := (List.range 3).foldl (fun s k => s.setReg (oMxRetired k) (imgWord x.body (5 + k) &&& (if k = 2 then fmask 3 0 else fmask 63 0))) s
      { s with res := { s.res with sramOut := (List.range 66).filter (fun p => bit (imgWord x.body (8 + p / 64)) (p % 64)) } }
    | none => s
  let s := match m.sec 6 with
    | some x =>
      let n := leAt x.body 0 2
      s.setReg oDbgSeq (setFld (setFld 0#64 63 48 n) 47 16 (if n = 0 then 0 else (crc32c (x.body.drop 8)).toNat))
    | none => s
  match m.sec 2 with
  | some x => { s with pin := { s.pin with bootTvd := x.body.take x.count } }
  | none => s

/-- A phase of the reset sequence begun (R442). -/
def State.setPhase (s : State) (n : Nat) : State := ({ s with pin := { s.pin with phase := n } } : State).setF oResetStat 35 32 n

/-- The start of phase 3 (R442): engine private memory comes first, so that what is written there from now on stands. The route table, which the image
gave, is written with it. -/
def State.stackStart (s : State) : State :=
  let routes := s.bytes 0x3A000000 256
  ({ s with mem := [], badLines := [], io := { s.io with badFree := [] } } : State).store 0x3A000000 routes

/-- The end of phase 2 (R436, R439, R442, R461): the frame pool and THERM_CRIT follow what the image gave; the beat master is locked to itself. -/
def State.imageEnd (s : State) : State :=
  let frames := List.range (s.f oTierStat 63 47 - s.f oTierMap 48 32)
  let s := { s with tier := { s.tier with free := frames } }
  ((s.setB oBeatSync 31 (s.b oBeatCfg 16)).stackStart.critNow).setPhase 3

/-- An image read or pushed in phase 2 (R446, R451): applied, or ignored as a whole. The state and whether it was applied. -/
def State.imageLoad (s : State) (bs : List Byte) : State × Bool :=
  match checkImage bs (s.me) with
  | .inl (code, at_) => (((s.setF oResetStat 59 56 code).setF oResetStat 55 48 at_).imageEnd, false)
  | .inr m => (((s.bootImage m).setF oResetStat 59 56 1).imageEnd, true)

/-! The image buffer -/

/-- The bytes of the image buffer. -/
def State.imageBytes (s : State) : List Byte := s.pin.image.flatMap (fun w => leBytes 8 w.toNat)

/-- A word appended to the image buffer (R394). -/
def State.imgWrite (s : State) (w : Word) : State :=
  if s.b oSvImgStat 0 || 2 ^ 17 ≤ s.pin.image.length then s
  else ({ s with pin := { s.pin with image := s.pin.image ++ [w] } } : State).setF oSvImgStat 63 32 (s.pin.image.length + 1)

/-! Region 0 -/

/-- A page of region 0 read at level 0 and, while it is uncorrectable, at the retry levels (R346, R446): the records sent to the bridge, one after the
other, and its bytes. -/
def State.imgPage (s : State) (lun page : Nat) (levels : List (List Byte)) : List BridgeRec × Option (List Byte) :=
  let m := s.f oFlashCfg 47 44
  let hit := (List.range (m + 1)).find? (fun i => !(nth [] levels i).isEmpty)
  let last := hit.getD m
  let rec_ := fun (kind p1 fa : Nat) => (⟨0, 0, kind, p1, fa, ⟨0, lun, 0, 0, page⟩, [], none, none⟩ : BridgeRec)
  let level := fun (i : Nat) => rec_ 5 i (s.f oFlashCfg 55 48)
  ((List.range (last + 1)).flatMap (fun i => (if i = 0 then [] else [level i]) ++ [rec_ 1 0 0]) ++ (if last = 0 then [] else [level 0]),
    hit.map (fun i => padTo 0#8 16384 ((nth [] levels i).take 16384)))

/-- n pages of a LUN from page k on. -/
def State.imgPages (s : State) (lun : Nat) (reads : List (List (List Byte))) : Nat → Nat → List BridgeRec × Option (List Byte)
  | 0, _ => ([], some [])
  | n + 1, k =>
    match s.imgPage lun k (nth [] reads k) with
    | (rs, none) => (rs, none)
    | (rs, some bs) => let (rs', t) := s.imgPages lun reads n (k + 1); (rs ++ rs', t.map (bs ++ ·))

/-- The LENGTH bytes of an image that a LUN holds, from the pages that they need; from the first one alone where LENGTH is none that an image can
have (R446, R447). -/
def State.imgLun (s : State) (lun : Nat) (reads : List (List (List Byte))) : List BridgeRec × Option (List Byte) :=
  match s.imgPages lun reads 1 0 with
  | (rs, none) => (rs, none)
  | (rs, some bs) =>
    let len := leAt bs 8 4
    let (rs', t) := s.imgPages lun reads ((if len ≤ 2 ^ 20 then cdiv len 16384 else 1) - 1) 1
    (rs ++ rs', t.map (fun x => (bs ++ x).take len))

/-- The LUNs tried from one on, n of them: the next one from its page 0 when a page is uncorrectable at every level (R446; assumption log 10). -/
def State.imgLuns (s : State) (flash : ImageReads) : Nat → Nat → List BridgeRec × Option (List Byte)
  | 0, _ => ([], none)
  | n + 1, l =>
    match s.imgLun l (nth [] flash l) with
    | (rs, some bs) => (rs, some bs)
    | (rs, none) => let (rs', t) := s.imgLuns flash n (l + 1); (rs ++ rs', t)

/-- The operations that program an image into region 0 (R454): block 0 of plane 0 of every LUN on channel 0 erased first, then the pages of one LUN after
the other. What R338 puts into the spare record of a page that is no unit, and its KIND, is not given (assumption log 5). -/
def State.imageProgram (s : State) (bs : List Byte) : State :=
  let luns := List.range (if s.channels = 0 then 0 else s.luns)
  let s := luns.foldl (fun s l => s.pushOp (mkOp 3 (physOf ⟨0, l, 0, 0, 0⟩) 0 (.image true))) s
  luns.foldl (fun s l => (List.range (cdiv bs.length 16384)).foldl (fun s k =>
    let p := physOf ⟨0, l, 0, 0, k⟩
    let n := s.tier.wseq + 1
    let d := unitData bs k
    let o := { mkOp 2 p 0 (.image false) with
      data := d, spare := ⟨Config.freeFlash p % 2 ^ 32, n, crc32c d, 0#32, Config.freeFlash (p + 2 ^ 33) % 256⟩ }
    ({ s with tier := { s.tier with wseq := n } } : State).pushOp o) s) s

/-- The programming of region 0 is under way: an operation of it has not ended. -/
def State.imageOps (s : State) : Bool :=
  (s.tier.ops ++ s.tier.backlog).any (fun o => match o.use with | .image _ => true | _ => false)

/-- Phase 2 waits for a push over this port (R446). -/
def State.pushWait (s : State) (port : RegPort) : Bool :=
  s.pin.phase = 2 && ((s.pin.straps.imageSrc = 1 && port = .hcp) || (s.pin.straps.imageSrc = 2 && port = .svp))

/-- Writes to the service group from this port are ignored while phase 2 waits for the other one (R446). -/
def State.serviceShut (s : State) (port : RegPort) : Bool :=
  s.pin.phase = 2 && ((s.pin.straps.imageSrc = 1 && port = .svp) || (s.pin.straps.imageSrc = 2 && port = .hcp))

/-- IMG_COMMIT (R394, R446, R454). -/
def State.imgCommit (s : State) (port : RegPort) : State :=
  if s.b oSvImgStat 0 then s
  else if s.pushWait port then
    let (s, ok) := s.imageLoad s.imageBytes
    s.setF oSvImgStat 15 8 (if ok then 0 else 0x16)
  else if s.pin.phase < 3 then s
  else match checkImage s.imageBytes s.me with
    | .inl _ => s.setF oSvImgStat 15 8 0x16
    | .inr _ =>
      let bs := s.imageBytes.take (leAt s.imageBytes 8 4)
      (({ s with pin := { s.pin with imgBusy := true } } : State).setB oSvImgStat 0 true).imageProgram bs

/-! Reset -/

/-- The block in reset (R441, R442): nothing is left but what the flash holds, the levels of the supply pins, and what lies outside. -/
def State.toReset (s : State) (cause : Nat) : State :=
  let keep := fun (hs : List (Option Snap)) => hs.map (fun (h : Option Snap) => h.filter (·.sealed))
  let snap := if s.b oTierStat 2 then [s.reg oSnapStat, s.reg oSnapPrev, s.reg oSnapOpen &&& fmask 6 2] else s.res.flashSnap
  let r := State.reset
  { r with
    pin := { r.pin with cause := cause, good := s.pin.good, warn := s.pin.warn }
    res := { r.res with halves := keep s.res.halves, mirHalves := keep s.res.mirHalves, flashSnap := snap }
    tier := { r.tier with mirPages := s.tier.mirPages, ckpt := s.tier.ckpt }
    pending := s.pending, freeCtr := s.freeCtr }

/-- The effect of SV_CTL.RESET (R394, R441). -/
def State.svReset (s : State) : State :=
  if s.b oSvImgStat 0 then { s with pin := { s.pin with rstHeld := true } } else s.toReset 1

/-- A write of SV_CTL (R394): clear, commit, reset. -/
def State.svCtl (s : State) (port : RegPort) (w : Word) : State :=
  if s.serviceShut port then s
  else
    let key := fld w 63 56 = 0xA5
    let s := if bit w 2 then (({ s with pin := { s.pin with image := [] } } : State).setF oSvImgStat 63 32 0) else s
    let s := if bit w 1 && key then s.imgCommit port else s
    if bit w 0 && key then s.svReset else s

/-! Rows -/

/-- SV_IMG_WR: a write of SV_IMG_WR (R394). -/
def execSvImgWr (port : RegPort) (data : Word) (s : State) : Host.Outcome State Fault Refusal :=
  s.portNow (fun s => if s.serviceShut port then s else s.imgWrite data)

/-- IMG_CLEAR: a write of SV_CTL (R394). -/
def execImgClear (port : RegPort) (value : Word) (s : State) : Host.Outcome State Fault Refusal :=
  s.portNow (fun s => s.svCtl port value)

/-- IMG_COMMIT: a write of SV_CTL (R394, R454). -/
def execImgCommit (port : RegPort) (value : Word) (s : State) : Host.Outcome State Fault Refusal :=
  s.portNow (fun s => s.svCtl port value)

/-- IMG_PROGRAM_DONE (R441, R454): once every program has passed, BUSY clears; a RESET that waited acts. -/
def execImgProgramDone (s : State) : Host.Outcome State Fault Refusal :=
  s.act (fun s =>
    if !s.pin.imgBusy || s.imageOps then s
    else
      let s := (({ s with pin := { s.pin with imgBusy := false } } : State).setB oSvImgStat 0 false).setF oSvImgStat 15 8 0
      if s.pin.rstHeld then s.toReset 1 else s)

/-- SV_RESET: a write of SV_CTL (R394, R441). -/
def execSvReset (port : RegPort) (value : Word) (s : State) : Host.Outcome State Fault Refusal :=
  s.portNow (fun s => s.svCtl port value)

/-- RST_N_ASSERT (R441). -/
def execRstNAssert (s : State) : Host.Outcome State Fault Refusal := s.done (fun s => s.toReset 0)

/-- SUPPLY_GOOD_FALL (R368, R441). -/
def execSupplyGoodFall (s : State) : Host.Outcome State Fault Refusal :=
  s.done (fun s => ({ s with pin := { s.pin with good := false } } : State).toReset 2)

/-- Phases 0 and 1 (R417, R442, R461): straps sampled, every register at its factory value, the test wrapper's registers cleared. From phase 2 on the
beat master is locked to itself. -/
def State.defaults (s : State) (st : Straps) : State :=
  let ii := st.instId % 256
  let s := { s with pin := { s.pin with straps := ⟨ii, st.feedId % 16, st.imageSrc % 4⟩, good := true, wir := 0, wdr := 0#64 } }
  let s := ((s.setF oStat 39 32 ii).bootF oCommitGroup 55 48 ii).bootF oCommitGroup 39 32 ii
  let s := ((s.setF oBeatSync 47 40 ii).bootF oSnapCfg 3 0 (st.feedId % 16)).setF oResetStat 63 60 s.pin.cause
  let s := (s.setB oBeatSync 31 (s.b oBeatCfg 16)).setPhase 2
  if s.pin.warn then s.warnUp else s

/-- RESET_SEQUENCE_START (R390, R441, R442). -/
def execResetSequenceStart (straps : Straps) (s : State) : Host.Outcome State Fault Refusal :=
  s.done (fun s => if s.pin.phase = 0 then s.defaults straps else s)

/-- IMAGE_PHASE (R446): `flash` is what the reads of region 0 return. In push mode the phase waits. -/
def execImagePhase (flash : ImageReads) (s : State) : Host.Outcome State Fault Refusal :=
  s.act (fun s =>
    if s.pin.phase ≠ 2 || s.pin.halted then s
    else if s.pin.straps.imageSrc = 3 then s.imageEnd
    else if s.pin.straps.imageSrc ≠ 0 then s
    else
      let (rs, img) := s.imgLuns flash 8 0
      let s := { s with out := { s.out with bridge := s.out.bridge ++ rs } }
      match img with
      | some bs => (s.imageLoad bs).1
      | none => ((s.setF oResetStat 59 56 6).setF oResetStat 55 48 0xFF).imageEnd)

/-- A supply warning holds the reset sequence (R444). -/
def State.bootHeld (s : State) : Bool := s.pin.halted || s.res.amberPh != 0

/-- The end of phase 3 (R442): the whole stack is written, and credits go out (R396). -/
def State.stackDone (s : State) : State :=
  let s := ({ s with io := { s.io with credits := List.replicate 32 (64, 128) } } : State).setB oResetStat 1 true
  s.setPhase (if s.channels = 0 || s.b oTierStat 2 then 5 else 4)

/-- STACK_INIT_DONE (R442). -/
def execStackInitDone (s : State) : Host.Outcome State Fault Refusal :=
  s.act (fun s => if s.pin.phase ≠ 3 || s.bootHeld then s else s.stackDone)

/-! Rebuild and format -/

/-- The slots that a rebuild takes (R342): of each section the newest whose CRC verifies and whose checkpoint has a commit record. -/
def chosenSlots (r : Rebuild) : List TableSlot :=
  let good := r.slots.filter (fun x => x.verifies && r.commits.contains x.num)
  good.filter (fun x => good.all (fun y => y.sect != x.sect || y.num < x.num || (y.num = x.num && x.slot ≤ y.slot)))

/-- The spare records of a rebuild in WSEQ order (R342). -/
def recordsInOrder (r : Rebuild) : List (FlashAddr × Spare) := r.pages.insertionSort (fun a b => a.2.wseq ≤ b.2.wseq)

/-- The units as the checkpoint and the spare records after it map them (R342): the last record of a unit stands. -/
def rebuiltUnits (r : Rebuild) : List (Nat × Nat × BitVec 32) :=
  (chosenSlots r).flatMap (fun x => x.units.map (fun (u, a, d) => (u, physOf a, d))) ++
    ((recordsInOrder r).filter (fun x => x.2.kind < 2)).map (fun (a, sp) => (sp.unit, physOf a, sp.digest))

/-- The block table of the newest checkpoint. -/
def blockTable (r : Rebuild) : List BlockEntry := (chosenSlots r).flatMap (·.blocks)

/-- A block's entry of the table, as the model holds it. -/
def blockOf (e : BlockEntry) : Block := ⟨e.erases, e.reads, min e.state 3, e.next, e.cls⟩

/-- The blocks that the spare records lie in. -/
def openedKeys (r : Rebuild) : List Nat := (r.pages.map (fun x => physOf x.1 / 1024)).eraseDups

/-- A block opened after the checkpoint, as its spare records show it: it goes on from the page after the last one, for the class of its KIND, with the
erase count of the table (assumption log 26). -/
def State.openAgain (s : State) (r : Rebuild) (k : Nat) : State :=
  let mine := r.pages.filter (fun x => physOf x.1 / 1024 = k)
  let next := (mine.map (fun x => x.1.page + 1)).foldl max (s.block k).next
  if (s.block k).state = 3 then s
  else s.setBlock k { s.block k with state := if next < s.blockPages then 1 else 2, next := next
                                     cls := if (s.block k).state = 1 then (s.block k).cls else min 1 ((mine.head?.map (·.2.kind)).getD 0) }

/-- A unit that a rebuild names: mapped, and its page in flash (R328), if the tier has that page already; the digest is known from the
spare record in any case. -/
def State.rebuiltUnit (s : State) (x : Nat × Nat × BitVec 32) : State :=
  let s := s.mapUnit x.1 x.2.1
  let st := if x.1 / 128 < s.f oTierMap 22 0 then PageState.flash else .zero
  s.setPage (x.1 / 128) { Page.none with st := st, digest := x.2.2, got := true }

/-- Records to the bridge, each with an OPID of its own among the 32 that its channel may hold (R414, R416). -/
def bridgeRecs (xs : List (Nat × Nat)) : List BridgeRec :=
  (List.zip (List.range xs.length) xs).map (fun (i, kind, p) => ⟨p / 2 ^ 29, i % 256, kind, 0, 0, addrOf p, [], none, none⟩)

/-- The page reads of a rebuild (R342, R343): the slots, the commit records, the pages of the blocks opened since. -/
def State.rebuildReads (s : State) (r : Rebuild) : List BridgeRec :=
  bridgeRecs ((r.slots.flatMap (fun x => (List.range 4).map (fun i => (1, s.sysPage (8 * x.sect + 4 * x.slot + i)))) ++
    r.commits.map (fun n => (1, s.sysPage (2 ^ 31 + n))) ++ r.pages.map (fun x => (1, physOf x.1))))

/-- The newest checkpoint taken over (R342, R385): mapping and block tables, page table, lifetime counters, what the flash keeps of the store. -/
def State.rebuildFrom (s : State) (r : Rebuild) : State :=
  let s := (s.setF oFlashStat 63 48 r.logicalGib).setF oFlashStat 31 16 ((blockTable r).filter (·.state = 4)).length
  let s := ((blockTable r).foldl (fun s e => s.setBlock e.key (blockOf e)) s)
  let blocks := s.tier.blocks
  let opened := (openedKeys r).filter (fun k => (s.block k).state = 0)
  let s := (openedKeys r).foldl (fun s k => s.openAgain r k) s
  let old := (chosenSlots r).flatMap (fun x => x.units.map (fun (u, a, _) => (u, physOf a)))
  let s := (rebuiltUnits r).foldl State.rebuiltUnit s
  let s := (List.range 8).foldl (fun s k => s.life k (nth 0 r.life k)) s
  let s := { s with tier := { s.tier with
    wseq := (r.pages.map (fun (x : FlashAddr × Spare) => x.2.wseq)).foldl max r.wseq, ckpt := r.commits.foldl max 0, opened := opened.length
    ckptDue := if opened.length < 256 then 0 else 1
    ckptUnits := old.foldl (fun (m : FMap Nat) (x : Nat × Nat) => fset unitDflt m x.1 x.2) [], ckptBlocks := blocks
    slots := (chosenSlots r).foldl (fun (m : FMap Nat) (x : TableSlot) => fset (fun _ => 1) m x.sect x.slot) [] } }
  (((s.life 1 1).setReg oSnapStat (nth 0#64 s.res.flashSnap 0)).setReg oSnapPrev (nth 0#64 s.res.flashSnap 1)).upd oSnapOpen
    (fun w => (w &&& ~~~(fmask 6 2)) ||| (nth 0#64 s.res.flashSnap 2 &&& fmask 6 2))

/-- The usable blocks of every LUN in service. -/
def State.allBlocks (s : State) : List Nat := s.lunOrder.flatMap (fun l => (List.range s.lunBlocks).map (s.nthBlock l))

/-- The last block of the largest geometry, whose last page has the address that stands for none (R338). -/
def lastBlock : Nat := 2 ^ 22 - 1

/-- The operations of a format (R341, R343, R444): the first and the last page of every block read for the factory marker, and every good block erased, with
its read status; an erase that a supply warning cut is repeated. -/
def State.formatOps (s : State) (r : Rebuild) : List BridgeRec :=
  let erase := fun (k : Nat) => [(3, 1024 * k), (4, 1024 * k)]
  bridgeRecs (s.allBlocks.flatMap (fun k => [(1, 1024 * k), (1, 1024 * k + s.blockPages - 1)]) ++
    (s.allBlocks.filter (fun k => !r.marked.contains k && k != lastBlock)).flatMap erase ++ (s.allBlocks.filter r.cut.contains).flatMap erase)

/-- The flash formatted (R338, R341, R342, R351): the blocks with a factory marker, and the one that has the address of none, are never used; nothing is
mapped, and OP/256 of the good capacity is kept back. -/
def State.format (s : State) (r : Rebuild) : State :=
  let bad := s.allBlocks.filter (fun k => r.marked.contains k || k = lastBlock)
  let s := { s with out := { s.out with bridge := s.out.bridge ++ s.formatOps r } }
  let s := (bad.foldl (fun s k => s.setBlock k { Block.none with state := 3 }) s).setF oFlashStat 31 16 0
  let good := s.lunOrder.foldl (fun n l => n + s.goodBlocks l) 0
  let s := s.setF oFlashStat 63 48 (good * s.blockPages * (256 - s.f oFlashCfg 63 56) / 256 / 65536)
  { s.setB oFlashStat 1 true with res := { s.res with halves := [none, none], mirHalves := [none, none] }
                                  tier := { s.tier with mirPages := [], ckpt := 0, wseq := 0 } }

/-- The flash rebuilt from the newest valid checkpoint, or formatted when there is none (R328, R342, R385). -/
def State.rebuild (s : State) (r : Rebuild) : State :=
  let s := { s with out := { s.out with bridge := s.out.bridge ++ s.rebuildReads r } }
  let s := if r.commits.isEmpty then s.format r else s.rebuildFrom r
  let s : State := { s with res := { s.res with lifeBase := (List.range 8).map (fun k => s.f (oLife k) 63 0) } }
  let s := s.flashStat.setB oTierStat 2 true
  if s.pin.phase = 4 then s.setPhase 5 else s

/-- FLASH_REBUILD_DONE (R342, R442): it may end before phase 3 does. -/
def execFlashRebuildDone (r : Rebuild) (s : State) : Host.Outcome State Fault Refusal :=
  s.act (fun s => if (s.pin.phase ≠ 3 && s.pin.phase ≠ 4) || s.channels = 0 || s.b oTierStat 2 || s.bootHeld then s else s.rebuild r)

/-- L and ρ × 128 of R45 for the live budget and coefficients, with m = 1 (R431). -/
def State.bootWidths (s : State) : Nat × Nat :=
  let w := s.reg oAdmitPwr
  let num := s.f oPowerBudget 8 0 - fld w 7 0 - fld w 15 8
  let den := fld w 23 16 + fld w 31 24
  if den ≤ num ∧ fld w 7 0 + fld w 15 8 + den ≤ s.f oPowerBudget 8 0 then (256, 128) else (8 * (256 * num / (8 * den)), 8 * (128 * num / (8 * den)))

/-- The image's bit-stream checked and made resident (R165), or refused. -/
def State.bootFabric (s : State) : State :=
  let bs := s.pin.bootTvd
  let s := { s with pin := { s.pin with bootTvd := [] } }
  if bs.isEmpty then s
  else
    let ok := match checkTvd bs bs.length with
      | .inr t => if (s.sramErr t).isSome then none else some t
      | .inl _ => none
    match ok with
    | none => s.setB oTvdStat 0 true
    | some t =>
      let s := { s with fab := { s.fab with resident := t, prev := t } }
      let s := (s.setRings (fun _ => true)).store 0x34810000 bs
      (s.upd oTvdStat (fun w => setFld (setFld w 23 16 (bitsOf (t.programs.map (·.program)))) 11 8 (bitsOf (t.variants.map (·.num))))).setReg
        oTvdBuild t.buildId

/-- What the image retired taken out of service (R137, R138, R224, R363). -/
def State.bootRetired (s : State) : State :=
  let lanes := s.lanesOut.foldl (fun m p => retireMap 264 m s.lanesOut p) s.fab.laneMap
  let rows := s.rowsOut.foldl (fun m p => retireMap 132 m s.rowsOut p) s.fab.rowMap
  let s := { s with fab := { s.fab with laneMap := lanes, rowMap := rows } }
  (s.res.sramOut.foldl (fun s p => { s with res := { s.res with sram := s.bankMap p } }) s).laneStat.rowStat.bankStat

/-- Phase 5 and READY (R128, R165, R431, R442). -/
def State.fabricGo (s : State) : State :=
  let s := s.bootRetired.bootFabric
  let (l, r) := s.bootWidths
  let s := { s with stage := { s.stage with inForce := { s.stage.inForce with lanes := l, rows := r } } }
  let s := { s.widths with fab := { s.widths.fab with genSeed := s.reg oFabSeed } }
  (s.setPhase 6).setB oResetStat 2 true

/-- FABRIC_PHASE (R165, R442). -/
def execFabricPhase (s : State) : Host.Outcome State Fault Refusal :=
  s.act (fun s => if s.pin.phase ≠ 5 || s.pin.halted then s else s.fabricGo)

/-! The test wrapper -/

/-- An instruction of the test wrapper shifted in (R417). WRSTN holds the wrapper in reset while the block is in functional operation, which is out of reset
(assumption log 9). -/
def State.wrapper (s : State) (i : Nat) : State := if s.pin.phase = 0 then { s with pin := { s.pin with wir := i } } else s

/-- WS_BYPASS (R417). -/
def execWsBypass (s : State) : Host.Outcome State Fault Refusal := s.done (fun s => s.wrapper 0x00)

/-- WS_EXTEST (R417). -/
def execWsExtest (s : State) : Host.Outcome State Fault Refusal := s.done (fun s => s.wrapper 0x01)

/-- WS_INTEST (R417). -/
def execWsIntest (s : State) : Host.Outcome State Fault Refusal := s.done (fun s => s.wrapper 0x02)

/-- WS_MBIST (R417): a pass bit for each memory comes to stand in the data register. -/
def execWsMbist (s : State) : Host.Outcome State Fault Refusal :=
  s.done (fun s => if s.pin.phase = 0 then
      let t := s.wrapper 0x10
      ({ t with pin := { t.pin with wdr := Config.freeMbist s.freeCtr } } : State).drawn 1
    else s)

end Sys2Proof.Machine
end

