-- ==== Sys2Proof/Machine/PeerCmds.lean ====
section
/-! DEFINITION. The rows of the messages between instances: commit (R75 to R77), norm reduction (R274 to R276), rounds and multicast
(R299 to R304), snapshots and tier pages of partners (R347, R373 to R384). -/
namespace Sys2Proof.Machine

/-! Commit -/

/-- COMMIT_VOTE (R75): taken by the coordinator, passed up the tree by another member. -/
def execCommitVote (src step v : Nat) (vote : Vote) (held reason : Nat) (s : State) : Host.Outcome State Fault Refusal :=
  s.workNow (fun s =>
    if s.isCoord then s.takeVote step ⟨src, v, vote, held, reason⟩
    else match s.normParent with
      | some p => s.send (.vote p src step v vote held reason)
      | none => s)

/-- COMMIT_VOTE_TIMEOUT (R75). -/
def execCommitVoteTimeout (s : State) : Host.Outcome State Fault Refusal := s.workNow State.votesOverdue

/-- COMMIT_DECISION (R75, R76): passed down the tree and followed. -/
def execCommitDecision (step : Nat) (d : Decision) (f inst info : Nat) (s : State) : Host.Outcome State Fault Refusal :=
  s.workNow (fun s =>
    let s := if s.normKids.isEmpty || s.isCoord then s else s.send (.decision step d f inst info)
    s.decide step d f inst info)

/-- COMMIT_FLIP (R58). -/
def execCommitFlip (s : State) : Host.Outcome State Fault Refusal := s.work (fun s => if s.flipDue then s.settle else s)

/-- COMMIT_IN_DOUBT (R77). -/
def execCommitInDoubt (s : State) : Host.Outcome State Fault Refusal := s.workNow State.enterDoubt

/-- IN_DOUBT_TIMEOUT (R77). -/
def execInDoubtTimeout (s : State) : Host.Outcome State Fault Refusal := s.workNow State.doubtTimeout

/-- JOURNAL_QUERY (R77): answered from the journal, when it holds the step. -/
def execJournalQuery (src step : Nat) (s : State) : Host.Outcome State Fault Refusal :=
  s.workNow (fun s => match s.commit.journal.find? (·.step == step) with
    | some j => s.send (.answer src step j.decision j.f)
    | none => s)

/-- JOURNAL_ANSWER (R77): a member in doubt applies it. -/
def execJournalAnswer (src step : Nat) (d : Decision) (f : Nat) (s : State) : Host.Outcome State Fault Refusal :=
  s.workNow (fun s => match s.commitRun with
    | some r => if s.commitPhase = 4 && r.step = step then s.decide step d f src 0 else s
    | none => s)

/-! Norm reduction and rounds -/

/-- REDUCE_PARTIAL: a child's subtree sum arrives (R274). It takes the place of one of the same step: a step closed again after a RESTORE has
a new sum. -/
def execReducePartial (src step : Nat) (value : KX) (s : State) : Host.Outcome State Fault Refusal :=
  s.workNow (fun s =>
    let n := s.grad.norm
    let others := n.partials.filter (fun p => !(p.src = src && p.step = step))
    if !s.normKids.contains src then s
    else ({ s with grad := { s.grad with norm := { n with partials := others ++ [⟨src, step, value⟩] } } } : State).normTry)

/-- REDUCE_TOTAL: the total and the clip factor come down the tree (R274 to R276). -/
def execReduceTotal (step : Nat) (total kappa : KX) (s : State) : Host.Outcome State Fault Refusal :=
  s.workNow (fun s =>
    if s.normPlace = 0 || s.f oNormStat 63 32 != step || (s.f oNormStat 31 28 != 2 && s.f oNormStat 31 28 != 4) then s
    else
      let s := s.normDone step total kappa
      if s.normKids.isEmpty then s else s.send (.total step total kappa))

/-- NORM_TIMEOUT: the total has not come VOTE_TIMEOUT beats after the partial went (R276). The wait of R19 ends. -/
def execNormTimeout (s : State) : Host.Outcome State Fault Refusal :=
  s.workNow (fun s =>
    let n := s.grad.norm
    let step := s.f oNormStat 63 32
    if s.f oNormStat 31 28 != 2 || s.beat < n.sentAt + s.voteTimeout then s
    else
      let s := s.setF oNormStat 31 28 4
      let s := s.peerLost none 0 (s.f oCommitGroup 55 48)
      { s with grad := { s.grad with norm := { n with timedOut := (step :: n.timedOut).take 4 } } })

/-- MC_DETACH: a receiver's lag exceeds LAG_LIMIT, or its link has failed (R302). -/
def execMcDetach (receiver : Nat) (s : State) : Host.Outcome State Fault Refusal :=
  s.workNow (fun s =>
    match s.cyan.receivers.find? (fun x => x.inst = receiver && x.attached) with
    | some x => if s.f oMcCfg 3 0 < s.lagOf x || s.linkDown receiver then s.detach receiver else s
    | none => s)

/-- ROUND_OPEN_REFUSED: a receiver refused the round-open; it counts as detached at once (R299). -/
def execRoundOpenRefused (src : Nat) (s : State) : Host.Outcome State Fault Refusal := s.workNow (fun s => s.detach src)

/-- CATCHUP_START: the first queued catch-up starts once the command that detached its receiver has completed, or goes on
where a page made it wait (R303). One queued between two commands waits for the second. -/
def execCatchupStart (s : State) : Host.Outcome State Fault Refusal :=
  s.workNow (fun s =>
    match s.cyan.catchups with
    | [] => s
    | c :: t =>
      if c.running then s.catchupSend c.inst
      else if c.seq = 2 ^ 32 || ((s.run .sq).map (·.seq)) = some c.seq then s
      else
        let s := { s with cyan := { s.cyan with catchups := { c with running := true, acked := s.beat } :: t } }
        let s := if c.opened then s else s.send (.roundOpen c.inst (mapId c.map) c.step)
        (s.catchupSend c.inst).catchupEnd c.inst)

/-- CATCHUP_ABANDON: nothing acknowledged for VOTE_TIMEOUT beats (R303). -/
def execCatchupAbandon (s : State) : Host.Outcome State Fault Refusal :=
  s.workNow (fun s =>
    match s.cyan.catchups.find? (fun c => c.running && c.acked + s.voteTimeout ≤ s.beat) with
    | some c =>
      (((s.count oMcStat 31 16 1).upd oMcStat (fun w => decFld w 15 0 1)).send (.abandon c.inst)).setCatchup c.inst (fun _ => none)
    | none => s)

/-- The running catch-up of a receiver waits for an acknowledgement (R303): of its round-open, or of the slot that it has sent. -/
def State.catchupAwaits (s : State) (src entry ofs : Nat) : Bool :=
  match s.cyan.catchups.find? (fun c => c.inst = src && c.running) with
  | some c => if entry = openEntry then !c.opened else c.sent && c.slots.head? = some (entry, ofs)
  | none => false

/-- A receiver owes the send ring an acknowledgement (R301). -/
def State.ringAwaits (s : State) (src entry ofs : Nat) : Bool :=
  s.cyan.ring.any (fun e => e.entry = entry && e.ofs = ofs && e.waiting.contains src)

/-- SLOT_ACK: a receiver has written a slot, or has taken a round-open (R301 to R303): the send ring's, else the catch-up's. -/
def execSlotAck (src entry ofs : Nat) (s : State) : Host.Outcome State Fault Refusal :=
  s.workNow (fun s =>
    if !s.ringAwaits src entry ofs && s.catchupAwaits src entry ofs then
      let s := if entry = openEntry then s.setCatchup src (fun c => some { c with opened := true, acked := s.beat })
        else s.setCatchup src (fun c => some { c with slots := c.slots.drop 1, sent := false, acked := s.beat })
      (s.catchupSend src).catchupEnd src
    else
      let oldest := match s.cyan.ring with | e :: _ => e.entry = entry && e.ofs = ofs | [] => false
      let rs := s.cyan.receivers.map (fun (x : Receiver) =>
        if x.inst != src then x
        else { x with opened := x.opened || entry = openEntry, charges := if oldest then 0 else x.charges })
      let ring := s.cyan.ring.map (fun (e : SentSlot) => if e.entry = entry && e.ofs = ofs then { e with waiting := e.waiting.filter (· != src) } else e)
      (({ s with cyan := { s.cyan with receivers := rs } } : State).freeSentRing ring).emitStep)

/-- The round of the own RESHARD or EMIT_CYAN in flight on a buffer, as (MAP_ID, STEP) (R299). -/
def State.ownRound (s : State) (b : Bool) : Option (Nat × Nat) :=
  match s.emitRun, s.cyan.bound with
  | some _, some (n, x, _) => if x = b then some (mapId s.cyan.boundMap, n) else none
  | _, _ => none

/-- ROUND_OPEN: a source opens a round on the build buffer, or is refused (R299). It joins the round under way; a buffer that is COMPLETE or
STALE begins anew. -/
def execRoundOpen (src mapId step : Nat) (s : State) : Host.Outcome State Fault Refusal :=
  s.workNow (fun s =>
    let b := s.cyanBuild
    let own := s.ownRound b
    if s.cyanSize = 0 || b = s.serving || own.any (· != (mapId, step)) then s.send (.roundRefused src)
    else
      let s := if own.isSome || s.holdsRound b mapId step then s else s.openRound b mapId step false
      s.send (.slotAck src openEntry 0))

/-- MC_SLOT: a multicast slot arrives (R301); data of a replaced round is discarded (R299). -/
def execMcSlot (src mapId step entry ofs : Nat) (data : List Byte) (s : State) : Host.Outcome State Fault Refusal :=
  s.workNow (fun s => s.takeSlot ⟨src, mapId, step, entry, ofs, data⟩)

/-- DETACH_NOTICE: a source has detached this instance (R284, R304). -/
def execDetachNotice (src : Nat) (s : State) : Host.Outcome State Fault Refusal :=
  s.workNow (fun s =>
    match s.roundOf src with
    | none => s
    | some b =>
      let x := s.cyanBuf b
      if x.srcs.any (fun r => r.src = src && r.detached) then s
      else
        let s := s.setCyanBuf b { x with srcs := x.srcs.map (fun r => if r.src = src then { r with detached := true } else r) }
        (s.count (oCyan b) 7 0 1).cyanSettle b)

/-- ABANDON_NOTICE: a source gives its catch-up to this instance up (R283, R303). -/
def execAbandonNotice (src : Nat) (s : State) : Host.Outcome State Fault Refusal :=
  s.workNow (fun s => match s.roundOf src with | some b => s.setF (oCyan b) 15 12 4 | none => s)

/-- LAGGING_TIMEOUT: no round data for VOTE_TIMEOUT beats while LAGGING (R283, R303). -/
def execLaggingTimeout (s : State) : Host.Outcome State Fault Refusal :=
  s.workNow (fun s =>
    match [false, true].find? (fun b => s.cyanState b = 3 && (s.cyanBuf b).lastData + s.voteTimeout ≤ s.beat) with
    | some b => s.setF (oCyan b) 15 12 4
    | none => s)

/-! Partners -/

/-- The block keeps a mirror for a partner (R370, R371). -/
def State.mirrors (s : State) : Bool := s.f oSnapCfg 31 16 != 0

/-- MIRROR_DATA (R373). -/
def execMirrorData (_src snapId step : Nat) (tiles : List SnapTile) (records : List SnapRecord) (s : State) :
    Host.Outcome State Fault Refusal :=
  s.workNow (fun s => if s.mirrors then s.mirrorTake snapId step tiles records else s)

/-- SEAL_MSG (R374). -/
def execSealMsg (_src snapId : Nat) (s : State) : Host.Outcome State Fault Refusal :=
  s.workNow (fun s => if s.mirrors then s.mirrorSeal snapId else s)

/-- TIER_MIRROR_PAGE (R377). A page's DIGEST is that of its bytes (R329). -/
def execTierMirrorPage (_src page : Nat) (_digest : BitVec 32) (data : List Byte) (s : State) : Host.Outcome State Fault Refusal :=
  s.workNow (fun s => if s.mirrors then s.keepPage page data else s)

/-- PAGE_FETCH_REQUEST (R347, R377). -/
def execPageFetchRequest (src page : Nat) (digest : BitVec 32) (s : State) : Host.Outcome State Fault Refusal :=
  s.workNow (fun s => s.answerPage src page digest)

/-- DIGEST_REQUEST (R381). -/
def execDigestRequest (src snapId first last : Nat) (s : State) : Host.Outcome State Fault Refusal :=
  s.workNow (fun s => s.digestReply src snapId first last)

/-- DIGEST_ANSWER (R381, R384). -/
def execDigestAnswer (src snapId step : Nat) (tables : List DigestTable) (s : State) : Host.Outcome State Fault Refusal :=
  s.workNow (fun s => s.restTables src snapId step tables)

/-- RESTORE_TABLE_TIMEOUT (R381). -/
def execRestoreTableTimeout (s : State) : Host.Outcome State Fault Refusal := s.workNow State.restLate

/-- RESTORE_CONFIRM (R384). -/
def execRestoreConfirm (s : State) : Host.Outcome State Fault Refusal := s.workNow State.restConfirm

/-- MIRROR_TILE_REQUEST (R378, R381). -/
def execMirrorTileRequest (src snapId : Nat) (t : TileId) (s : State) : Host.Outcome State Fault Refusal :=
  s.workNow (fun s => s.tileReply src snapId t)

/-- MIRROR_TILE_ANSWER (R378, R381). -/
def execMirrorTileAnswer (src snapId : Nat) (t : TileId) (data : Option (List Byte)) (s : State) : Host.Outcome State Fault Refusal :=
  s.workNow (fun s => s.tileAnswer src snapId t data)

/-- MIRROR_LOSS_REPORT (R378). -/
def execMirrorLossReport (src snapId : Nat) (s : State) : Host.Outcome State Fault Refusal :=
  s.workNow (fun s => if s.partner = some src then s.mirrorLoss snapId else s)

end Sys2Proof.Machine
end

