-- ==== Sys2Proof/Machine/QueueCmds.lean ====
section
/-! DEFINITION. The rows of the queue registers and of the commands of the four queues. Before a row acts, what was due at the boundary
just passed has taken effect (R69). -/
namespace Sys2Proof.Machine

/-- DOORBELL: a write of Q_DOORBELL. -/
def execDoorbell (q : Queue) (value : Word) (s : State) : Host.Outcome State Fault Refusal :=
  s.portNow (fun s => s.ring_ q (fld value 31 0))

/-- Q_CFG_WRITE: a write of Q_CFG. -/
def execQCfgWrite (q : Queue) (value : Word) (s : State) : Host.Outcome State Fault Refusal :=
  s.portNow (fun s => s.qCfg q value)

/-- QUEUE_RING_ZEROED: the completion ring reads zero and READY sets (R426). -/
def execQueueRingZeroed (q : Queue) (s : State) : Host.Outcome State Fault Refusal :=
  s.workNow (fun s =>
    if !(s.queue q).zeroing then s
    else
      let s := s.store (0x39000000 + 0x200000 * qIdx q) (List.replicate (32 * s.entries q) 0#8)
      (s.setQueue q { s.queue q with zeroing := false }).setB (oQStat (qIdx q)) 0 true)

/-- UPDATE (R176 to R178). -/
def execUpdate (s : State) : Host.Outcome State Fault Refusal :=
  s.workNow (fun s => s.serve .uq 0x30 State.updateEval State.sweepGo)

/-- UPDATE_SPARSE (R179 to R186). -/
def execUpdateSparse (s : State) : Host.Outcome State Fault Refusal :=
  s.workNow (fun s => s.serve .uq 0x31 State.sparseEval State.sweepGo)

/-- FOLD (R258 to R265). -/
def execFold (s : State) : Host.Outcome State Fault Refusal := s.workNow (fun s => s.serve .aq 0x20 State.foldEval State.foldGo)

/-- FOLD_SPARSE (R258, R259, R266, R267). -/
def execFoldSparse (s : State) : Host.Outcome State Fault Refusal :=
  s.workNow (fun s => s.serve .aq 0x21 State.foldEval State.foldGo)

/-- CLOSE_STEP (R269 to R276). -/
def execCloseStep (s : State) : Host.Outcome State Fault Refusal :=
  s.workNow (fun s => s.serve .aq 0x22 State.closeEval State.closeGo)

/-- MATRIX (R204 to R222). -/
def execMatrix (s : State) : Host.Outcome State Fault Refusal :=
  s.workNow (fun s => s.serve .uq 0x32 State.matrixEval State.matrixGo)

/-- GATHER (R306, R307). -/
def execGather (s : State) : Host.Outcome State Fault Refusal :=
  s.workNow (fun s => s.serve .gq 0x10 State.gatherEval State.gatherGo)

/-- GATHER_SPARSE (R306, R307). -/
def execGatherSparse (s : State) : Host.Outcome State Fault Refusal :=
  s.workNow (fun s => s.serve .gq 0x11 State.gatherEval State.gatherGo)

/-- RESHARD (R296 to R300). -/
def execReshard (s : State) : Host.Outcome State Fault Refusal :=
  s.workNow (fun s => s.serve .sq 0x40 State.emitEval State.emitGo)

/-- EMIT_CYAN (R296 to R300). -/
def execEmitCyan (s : State) : Host.Outcome State Fault Refusal :=
  s.workNow (fun s => s.serve .sq 0x41 State.emitEval State.emitGo)

/-- BARRIER (R242, R243). -/
def execBarrier (q : Queue) (s : State) : Host.Outcome State Fault Refusal :=
  s.workNow (fun s => s.serve q 0x01 (State.barrierEval q) (State.barrierGo q))

/-- COMMIT (R72 to R79). -/
def execCommit (s : State) : Host.Outcome State Fault Refusal :=
  s.workNow (fun s => s.serve .uq 0x33 State.commitEval (fun s r => s.commitGo r))

/-- DISCARD (R80, R81). -/
def execDiscard (s : State) : Host.Outcome State Fault Refusal := 
  s.workNow (fun s => s.serve .uq 0x34 State.discardEval (fun s _ => s))

/-- SNAPSHOT (R372 to R374). -/
def execSnapshot (s : State) : Host.Outcome State Fault Refusal :=
  s.workNow (fun s => s.serve .sq 0x42 State.snapEval State.snapGo)

/-- RESTORE (R379 to R384). -/
def execRestore (s : State) : Host.Outcome State Fault Refusal :=
  s.workNow (fun s => s.serve .sq 0x43 State.restEval State.restGo)

/-- STASH_PUT (R316 to R320). -/
def execStashPut (s : State) : Host.Outcome State Fault Refusal :=
  s.workNow (fun s => s.serve .sq 0x44 State.stashEval State.stashGo)

/-- STASH_GET (R316 to R320). -/
def execStashGet (s : State) : Host.Outcome State Fault Refusal :=
  s.workNow (fun s => s.serve .sq 0x45 State.stashEval State.stashGo)

/-- PREFETCH: TIER_HINT with ACTION 0 (R335, R336). -/
def execPrefetch (s : State) : Host.Outcome State Fault Refusal := s.workNow (State.hintServe 0)

/-- DEMOTE: TIER_HINT with ACTION 1 (R336). -/
def execDemote (s : State) : Host.Outcome State Fault Refusal := s.workNow (State.hintServe 1)

/-- KEEP: TIER_HINT with ACTION 2 (R336). -/
def execKeep (s : State) : Host.Outcome State Fault Refusal := s.workNow (State.hintServe 2)

/-- RELEASE: TIER_HINT with ACTION 3 (R336). -/
def execRelease (s : State) : Host.Outcome State Fault Refusal := s.workNow (State.hintServe 3)

/-- CLEAR: TIER_HINT with ACTION 4 (R336, R349). -/
def execClear (s : State) : Host.Outcome State Fault Refusal := s.workNow (fun s => (State.hintServe 4 s).wake)

/-- REFETCH: TIER_HINT with ACTION 5 (R336). -/
def execRefetch (s : State) : Host.Outcome State Fault Refusal := s.workNow (fun s => (State.hintServe 5 s).wake)

/-- SLATE_UPDATE (R194, R195). -/
def execSlateUpdate (s : State) : Host.Outcome State Fault Refusal :=
  s.workNow (fun s => s.serve .sq 0x47 State.slateEval State.slateGo)

/-- FENCE (R419). -/
def execFence (s : State) : Host.Outcome State Fault Refusal :=
  s.workNow (fun s => s.serve .sq 0x4F State.fenceEval State.fenceGo)

end Sys2Proof.Machine
end

