-- ==== Sys2Proof/Machine/RegPort.lean ====
section
/-! DEFINITION. The register ports (R386, R391 to R394, R443, R455 to R469): what a register reads as, and what a write does. -/
namespace Sys2Proof.Machine

/-! Values -/

/-- STAT (R465): PROFILE_DIVERGED and PARTNER_CORRELATED are kept, every other field follows its source. -/
def State.statWord (s : State) : Word :=
  let st := s.f oCommitState 31 28
  let ports := (List.range 8).any (fun p => s.b (oPlStat p) 2 || (s.b oPlCfg p && !s.b (oPlStat p) 0))
  let degraded := s.b oFabStat 2 || s.b oMxStat 2 || s.b oSramStat 2 || ports || s.b oFlashStat 2 || s.b oFlashStat 3 ||
    s.f oFlashStat 15 8 != 0 || s.reg oChFailed != 0#64
  let crimson := s.tier.pages.any (fun e => e.2.crimson)
  let bits : List (Nat × Bool) :=
    [(63, s.pin.halted), (62, s.b oResetStat 2), (61, s.quiesced), (60, s.b oAmberStat 1), (59, s.b oPwrStat 4), (58, s.b oPwrStat 3),
     (57, s.b oStat 57), (56, s.serving != s.cyanRead), (55, s.b oStat 55), (54, s.b oRestoreStat 31), (53, s.b oFaultRecord 63),
     (52, s.b oNanRecord 63), (51, st = 4 || st = 5), (50, crimson), (49, degraded),
     (48, (List.range 4).any (fun k => s.b (oAdmitReport k) 0)), (47, s.b oBeatSync 31)]
  setFld (setFld (bits.foldl (fun w x => setBit w x.1 x.2) 0#64) 39 32 s.me) 31 0 s.stepNow

/-- Tiered pages that are Crimson (R352). -/
def State.crimsonPages (s : State) : Nat := (s.tier.pages.filter (fun e => e.2.crimson)).length

/-- PWR_STAT.BANKS_GATED (R433, R436): of the 66 banks of 1 MiB, those that hold no ring of the resident bit-stream, none of the 8 MiB of
service rings and none of the 8 MiB of matrix staging (R229); 0 before READY. The rings of the bit-stream lie side by side
(assumption log 4). -/
def State.banksGated (s : State) : Nat :=
  if s.b oResetStat 2 then 50 - cdiv (s.fab.resident.streams.foldl (fun n e => n + e.slots * 2 ^ (16 + e.slotLog2)) 0) (2 ^ 20) else 0

/-- Bytes in MiB as a counter field holds them. -/
def mib (n : Nat) : Nat := min (n / 2 ^ 20) (2 ^ 24 - 1)

/-- The registers that are written only (R13, R462): they read 0. -/
def writeOnly : List Nat := (List.range 4).map oQDoorbell ++ [oFabSwap, oMxSwap, oSvCtl, oSvImgWr]

/-- The live value of the register at an offset. What the engine keeps in another form is laid out here; an offset without a register and
a write-only register read 0 (R392, R455). -/
def State.regValue (s : State) (o : Nat) : Word :=
  let w := s.reg o
  if writeOnly.contains o then 0#64
  else if o = oStat then s.statWord
  else if o = oStrmPool then s.poolWord
  else if o = oStrmStopped then setFld w 31 0 (bitsOf ((List.range 32).filter s.engineStopped))
  else if inFam o 0x7200 8 32 then setFld (s.strmStat ((o - 0x7200) / 8)) 39 36 (s.streamState ((o - 0x7200) / 8))
  else if inFam o 0x4018 32 4 then s.qStat (qOf ((o - 0x4018) / 32))
  else if o = oTierStat then setFld (setFld w 46 30 s.tier.free.length) 29 8 s.crimsonPages
  else if o = oStashStat then setFld (setFld w 63 40 (mib s.stash.inBytes)) 39 16 (mib s.stash.outBytes)
  else if o = oSnapOpen then setBit w 0 (s.b oStat 55)
  else if o = oPwrStat then setFld w 23 16 s.banksGated
  else if o = oDbgSeq && !s.pin.halted && 2 < s.pin.phase then setFld w 15 0 (Config.freePc s.freeCtr)
  else w

/-- A port's latch of the service mirror. -/
def State.latchOf (s : State) (port : RegPort) : List Word := match port with | .hcp => s.mirror.hcp | .svp => s.mirror.svp

/-- What a read of an offset through a port returns (R458, R467): the mirror comes from the port's latch, and STAGE_CTL.VIEW shows HCP the
staged copies. -/
def State.readPort (s : State) (port : RegPort) (o : Nat) : Word :=
  if o = oSvMir 0 then s.regValue oBlockId
  else if inFam o 0xD100 8 32 then nth 0#64 (s.latchOf port) ((o - 0xD100) / 8)
  else if isStaged o && s.b oStageCtl 7 && port = .hcp then mergeSt o (s.stg o) (s.regValue o)
  else s.regValue o

/-- The 32 sources of the service mirror (R468). -/
def mirrorSources : List Nat :=
  [oBlockId, oBlockVersion, oCaps0, oCaps1, oCaps2, oCaps3, oStat, oBeatNow, oBeatSync, oCommitState, oCommitBeat, oStageResult, oFaultRecord,
   oFaultBeat, oFaultWhere, oFaultLog, oNanRecord, oNumStat, oPwrStat, oTempStat, oAmberStat, oTierStat, oFlashStat, oCheckStat, oSramStat,
   oFabStat, oMxStat, oSnapStat, oRestoreStat, oResetStat, oImageId, oLife 0]

/-- The service mirror latched for a port (R467). -/
def State.latch32 (s : State) (port : RegPort) : State :=
  let l := mirrorSources.map s.regValue
  ({ s with mirror := match port with | .hcp => { s.mirror with hcp := l } | .svp => { s.mirror with svp := l } } : State).drawn 1

/-- SV_MIR0_READ (R467). -/
def execSvMir0Read (port : RegPort) (s : State) : Host.Outcome State Fault Refusal := s.portNow (fun s => s.latch32 port)

/-! Writes -/

/-- An SVP write outside the service group refused (R386, R392, R394). -/
def State.svRefuse (s : State) (o : Nat) : State := ((s.count oSvRefused 63 44 1).setF oSvRefused 36 20 (o / 8)).setF oSvRefused 7 0 0x17

/-- A write of a register of the service group (R394, R467): of the others nothing is writable. -/
def State.svWrite (s : State) (port : RegPort) (o : Nat) (w : Word) : State :=
  if o = oSvCtl then s.svCtl port w
  else if o = oSvImgWr && !s.serviceShut port then s.imgWrite w
  else s

/-- A write of plain RW and W1C fields (R13, R457). -/
def State.fieldWrite (s : State) (o : Nat) (w : Word) : State :=
  let old := s.reg o
  let new := ((w &&& rwMask o) ||| (old &&& ~~~(rwMask o))) &&& ~~~(w &&& w1cMask o)
  if new = old then s else s.setReg o new

/-- A register written through a port (R386, R392, R443, R458, R462). -/
def State.regWrite (s : State) (port : RegPort) (o : Nat) (w : Word) : State :=
  if 2 ^ 20 ≤ o || o % 8 != 0 then s
  else if 0xD000 ≤ o && o < 0xE000 then s.svWrite port o w
  else if port = .svp then s.svRefuse o
  else if o = oCtl then s.ctlWrite w
  else if o = oStageCtl then s.stageCtl w
  else if inFam o 0x4000 32 4 then s.qCfg (qOf ((o - 0x4000) / 32)) w
  else if inFam o 0x4008 32 4 then s.ring_ (qOf ((o - 0x4008) / 32)) (fld w 31 0)
  else if o = oFabSwap then s.fabSwap w
  else if o = oMxSwap then s.mxSwap w
  else if isStaged o then s.stWrite o w
  else s.fieldWrite o w

/-- A write is refused (R386): one of SVP outside the service group, to an offset that the port can carry. SV_ERR says so; HC_ERR is always 0 (R391). -/
def writeErr (port : RegPort) (o : Nat) : Bool := port = .svp && o < 2 ^ 20 && o % 8 = 0 && !(0xD000 ≤ o && o < 0xE000)

/-- REGISTER_WRITE (R391, R392): the write, and the ERR of its acknowledgement. -/
def execRegisterWrite (port : RegPort) (offset : Nat) (value : Word) (s : State) : Host.Outcome State Fault Refusal :=
  s.portNow (fun s =>
    let t := s.regWrite port offset value
    { t with out := { t.out with acks := t.out.acks ++ [(port, writeErr port offset)] } })

end Sys2Proof.Machine
end

