-- ==== Sys2Proof/Machine/TierCmds.lean ====
section
/-! DEFINITION. The rows of tier pages and of the flash translation (R332 to R348). -/
namespace Sys2Proof.Machine

/-- After an event of the flash: blocks that are free of valid units erased, the registers brought up to date, waiting bursts tried. -/
def State.flashAfter (s : State) : State := s.reclaimGo.tightStale.flashStat.wake

/-- TIER_TIMEOUT (R333). -/
def execTierTimeout (page : Nat) (s : State) : Host.Outcome State Fault Refusal :=
  s.workNow (fun s => (s.tierLate page).wake)

/-- PROMOTION_START (R332). -/
def execPromotionStart (page : Nat) (s : State) : Host.Outcome State Fault Refusal :=
  s.workNow (fun s => (s.promoteStart page).flashAfter)

/-- PAGE_FETCH_ANSWER (R347). -/
def execPageFetchAnswer (src page : Nat) (data : Option (List Byte)) (s : State) : Host.Outcome State Fault Refusal :=
  s.workNow (fun s => (s.fetchAnswer src page data).flashAfter)

/-- PAGE_FETCH_TIMEOUT (R347). -/
def execPageFetchTimeout (page : Nat) (s : State) : Host.Outcome State Fault Refusal :=
  s.workNow (fun s => (s.fetchLate page).flashAfter)

/-- BRIDGE_READ_STATUS (R332, R340, R346). -/
def execBridgeReadStatus (ch opid ecc corrected : Nat) (data : List Byte) (spare : Spare) (s : State) : Host.Outcome State Fault Refusal :=
  s.workNow (fun s => (s.readStatus ch opid ecc corrected data spare).flashAfter)

/-- BRIDGE_PROGRAM_STATUS (R341). -/
def execBridgeProgramStatus (ch opid : Nat) (failed : Bool) (s : State) : Host.Outcome State Fault Refusal :=
  s.workNow (fun s => (s.programStatus ch opid failed).flashAfter)

/-- BRIDGE_ERASE_STATUS (R341). -/
def execBridgeEraseStatus (ch opid : Nat) (failed : Bool) (s : State) : Host.Outcome State Fault Refusal :=
  s.workNow (fun s => (s.eraseStatus ch opid failed).flashAfter)

/-- BRIDGE_SET_FEATURES_STATUS (R346). -/
def execBridgeSetFeaturesStatus (ch opid : Nat) (s : State) : Host.Outcome State Fault Refusal :=
  s.workNow (fun s => (s.featuresStatus ch opid).flashAfter)

/-- BRIDGE_TIMEOUT (R344, R345). -/
def execBridgeTimeout (ch opid : Nat) (s : State) : Host.Outcome State Fault Refusal :=
  s.workNow (fun s => (s.bridgeLate ch opid).flashAfter)

/-- EVICTION (R334). -/
def execEviction (s : State) : Host.Outcome State Fault Refusal := s.workNow (fun s => s.evictGo.flashAfter)

/-- GARBAGE_COLLECTION (R339). -/
def execGarbageCollection (lun : Nat) (s : State) : Host.Outcome State Fault Refusal := s.workNow (fun s => (s.gcGo lun).flashAfter)

/-- WEAR_LEVELLING (R339). -/
def execWearLevelling (s : State) : Host.Outcome State Fault Refusal := s.workNow (fun s => s.wearGo.flashAfter)

/-- REFRESH (R340). -/
def execRefresh (s : State) : Host.Outcome State Fault Refusal := s.workNow (fun s => s.refreshGo.flashAfter)

/-- PATROL (R340). -/
def execPatrol (s : State) : Host.Outcome State Fault Refusal := s.workNow (fun s => s.patrolGo.flashAfter)

/-- CHECKPOINT (R342). -/
def execCheckpoint (s : State) : Host.Outcome State Fault Refusal := s.workNow State.checkpointGo

end Sys2Proof.Machine
end

