-- ==== Sys2Proof/Machine/Dispatch.lean ====
section
/-! DEFINITION. Which meaning each command has: one arm for each row of the table. -/
namespace Sys2Proof.Machine

/-- The effect of a command on everything but the queue. -/
def exec (i : Instr) (s : State) : Host.Outcome State Fault Refusal :=
  match i with
  | .barrier q => Sys2Proof.Machine.execBarrier q s
  | .gather => Sys2Proof.Machine.execGather s
  | .gatherSparse => Sys2Proof.Machine.execGatherSparse s
  | .fold => Sys2Proof.Machine.execFold s
  | .foldSparse => Sys2Proof.Machine.execFoldSparse s
  | .closeStep => Sys2Proof.Machine.execCloseStep s
  | .update => Sys2Proof.Machine.execUpdate s
  | .updateSparse => Sys2Proof.Machine.execUpdateSparse s
  | .matrix => Sys2Proof.Machine.execMatrix s
  | .commit => Sys2Proof.Machine.execCommit s
  | .discard => Sys2Proof.Machine.execDiscard s
  | .reshard => Sys2Proof.Machine.execReshard s
  | .emitCyan => Sys2Proof.Machine.execEmitCyan s
  | .snapshot => Sys2Proof.Machine.execSnapshot s
  | .restore => Sys2Proof.Machine.execRestore s
  | .stashPut => Sys2Proof.Machine.execStashPut s
  | .stashGet => Sys2Proof.Machine.execStashGet s
  | .prefetch => Sys2Proof.Machine.execPrefetch s
  | .demote => Sys2Proof.Machine.execDemote s
  | .keep => Sys2Proof.Machine.execKeep s
  | .release => Sys2Proof.Machine.execRelease s
  | .clear => Sys2Proof.Machine.execClear s
  | .refetch => Sys2Proof.Machine.execRefetch s
  | .slateUpdate => Sys2Proof.Machine.execSlateUpdate s
  | .fence => Sys2Proof.Machine.execFence s
  | .doorbell q value => Sys2Proof.Machine.execDoorbell q value s
  | .qCfgWrite q value => Sys2Proof.Machine.execQCfgWrite q value s
  | .queueRingZeroed q => Sys2Proof.Machine.execQueueRingZeroed q s
  | .check value => Sys2Proof.Machine.execCheck value s
  | .checkComplete => Sys2Proof.Machine.execCheckComplete s
  | .apply value => Sys2Proof.Machine.execApply value s
  | .applyTakeEffect => Sys2Proof.Machine.execApplyTakeEffect s
  | .groupApply => Sys2Proof.Machine.execGroupApply s
  | .groupApplyTimeout => Sys2Proof.Machine.execGroupApplyTimeout s
  | .cancel value => Sys2Proof.Machine.execCancel value s
  | .load value => Sys2Proof.Machine.execLoad value s
  | .quiesce value => Sys2Proof.Machine.execQuiesce value s
  | .fabSwap value => Sys2Proof.Machine.execFabSwap value s
  | .mxSwap value => Sys2Proof.Machine.execMxSwap value s
  | .svMir0Read port => Sys2Proof.Machine.execSvMir0Read port s
  | .svImgWr port data => Sys2Proof.Machine.execSvImgWr port data s
  | .imgClear port value => Sys2Proof.Machine.execImgClear port value s
  | .imgCommit port value => Sys2Proof.Machine.execImgCommit port value s
  | .imgProgramDone => Sys2Proof.Machine.execImgProgramDone s
  | .svReset port value => Sys2Proof.Machine.execSvReset port value s
  | .registerWrite port offset value => Sys2Proof.Machine.execRegisterWrite port offset value s
  | .hmRead sub op addr beats tag => Sys2Proof.Machine.execHmRead sub op addr beats tag s
  | .hmWrite sub addr beats tag data mask => Sys2Proof.Machine.execHmWrite sub addr beats tag data mask s
  | .chReadReturn line data checkWord parityOk attempt => Sys2Proof.Machine.execChReadReturn line data checkWord parityOk attempt s
  | .chWriteResponse line berr attempt => Sys2Proof.Machine.execChWriteResponse line berr attempt s
  | .chReadTimeout line attempt => Sys2Proof.Machine.execChReadTimeout line attempt s
  | .chPortFail port => Sys2Proof.Machine.execChPortFail port s
  | .beatBoundary offsetNs => Sys2Proof.Machine.execBeatBoundary offsetNs s
  | .beatSyncMsg m => Sys2Proof.Machine.execBeatSyncMsg m s
  | .syncFault => Sys2Proof.Machine.execSyncFault s
  | .beatRelock => Sys2Proof.Machine.execBeatRelock s
  | .masterLost => Sys2Proof.Machine.execMasterLost s
  | .commitVote src step v vote held reason => Sys2Proof.Machine.execCommitVote src step v vote held reason s
  | .commitVoteTimeout => Sys2Proof.Machine.execCommitVoteTimeout s
  | .commitDecision step d f inst info => Sys2Proof.Machine.execCommitDecision step d f inst info s
  | .commitFlip => Sys2Proof.Machine.execCommitFlip s
  | .commitInDoubt => Sys2Proof.Machine.execCommitInDoubt s
  | .inDoubtTimeout => Sys2Proof.Machine.execInDoubtTimeout s
  | .journalQuery src step => Sys2Proof.Machine.execJournalQuery src step s
  | .journalAnswer src step d f => Sys2Proof.Machine.execJournalAnswer src step d f s
  | .groupBarrierTimeout q => Sys2Proof.Machine.execGroupBarrierTimeout q s
  | .reducePartial src step value => Sys2Proof.Machine.execReducePartial src step value s
  | .reduceTotal step total kappa => Sys2Proof.Machine.execReduceTotal step total kappa s
  | .normTimeout => Sys2Proof.Machine.execNormTimeout s
  | .roundOpen src mapId step => Sys2Proof.Machine.execRoundOpen src mapId step s
  | .mcSlot src mapId step entry ofs data => Sys2Proof.Machine.execMcSlot src mapId step entry ofs data s
  | .slotAck src entry ofs => Sys2Proof.Machine.execSlotAck src entry ofs s
  | .mcDetach receiver => Sys2Proof.Machine.execMcDetach receiver s
  | .detachNotice src => Sys2Proof.Machine.execDetachNotice src s
  | .catchupStart => Sys2Proof.Machine.execCatchupStart s
  | .catchupAbandon => Sys2Proof.Machine.execCatchupAbandon s
  | .abandonNotice src => Sys2Proof.Machine.execAbandonNotice src s
  | .laggingTimeout => Sys2Proof.Machine.execLaggingTimeout s
  | .mirrorData src snapId step tiles records => Sys2Proof.Machine.execMirrorData src snapId step tiles records s
  | .sealMsg src snapId => Sys2Proof.Machine.execSealMsg src snapId s
  | .tierMirrorPage src page digest data => Sys2Proof.Machine.execTierMirrorPage src page digest data s
  | .pageFetchRequest src page digest => Sys2Proof.Machine.execPageFetchRequest src page digest s
  | .pageFetchAnswer src page data => Sys2Proof.Machine.execPageFetchAnswer src page data s
  | .pageFetchTimeout page => Sys2Proof.Machine.execPageFetchTimeout page s
  | .digestRequest src snapId first last => Sys2Proof.Machine.execDigestRequest src snapId first last s
  | .digestAnswer src snapId step tables => Sys2Proof.Machine.execDigestAnswer src snapId step tables s
  | .restoreTableTimeout => Sys2Proof.Machine.execRestoreTableTimeout s
  | .restoreConfirm => Sys2Proof.Machine.execRestoreConfirm s
  | .peerFrame port f => Sys2Proof.Machine.execPeerFrame port f s
  | .peerPortUp port peer locked => Sys2Proof.Machine.execPeerPortUp port peer locked s
  | .laneSwap port lane => Sys2Proof.Machine.execLaneSwap port lane s
  | .linkCalibration port lane => Sys2Proof.Machine.execLinkCalibration port lane s
  | .ringClaim ring => Sys2Proof.Machine.execRingClaim ring s
  | .tileComplete q => Sys2Proof.Machine.execTileComplete q s
  | .streamStop q engine t page => Sys2Proof.Machine.execStreamStop q engine t page s
  | .streamStopEnd engine => Sys2Proof.Machine.execStreamStopEnd engine s
  | .streamWatchdog engine => Sys2Proof.Machine.execStreamWatchdog engine s
  | .tierTimeout page => Sys2Proof.Machine.execTierTimeout page s
  | .promotionStart page => Sys2Proof.Machine.execPromotionStart page s
  | .bridgeReadStatus ch opid ecc corrected data spare => Sys2Proof.Machine.execBridgeReadStatus ch opid ecc corrected data spare s
  | .bridgeProgramStatus ch opid failed => Sys2Proof.Machine.execBridgeProgramStatus ch opid failed s
  | .bridgeEraseStatus ch opid failed => Sys2Proof.Machine.execBridgeEraseStatus ch opid failed s
  | .bridgeTimeout ch opid => Sys2Proof.Machine.execBridgeTimeout ch opid s
  | .eviction => Sys2Proof.Machine.execEviction s
  | .garbageCollection lun => Sys2Proof.Machine.execGarbageCollection lun s
  | .wearLevelling => Sys2Proof.Machine.execWearLevelling s
  | .refresh => Sys2Proof.Machine.execRefresh s
  | .patrol => Sys2Proof.Machine.execPatrol s
  | .checkpoint => Sys2Proof.Machine.execCheckpoint s
  | .scrubSlice lines => Sys2Proof.Machine.execScrubSlice lines s
  | .telemetrySlice => Sys2Proof.Machine.execTelemetrySlice s
  | .greyStarved cls => Sys2Proof.Machine.execGreyStarved cls s
  | .laneError phys kind cell flight => Sys2Proof.Machine.execLaneError phys kind cell flight s
  | .laneSpareLoaded => Sys2Proof.Machine.execLaneSpareLoaded s
  | .rowError phys kind => Sys2Proof.Machine.execRowError phys kind s
  | .sramDoubleBit place word => Sys2Proof.Machine.execSramDoubleBit place word s
  | .sramBankRetire event => Sys2Proof.Machine.execSramBankRetire event s
  | .sequencerHalt => Sys2Proof.Machine.execSequencerHalt s
  | .sequencerCorrected => Sys2Proof.Machine.execSequencerCorrected s
  | .supplyWarnAssert => Sys2Proof.Machine.execSupplyWarnAssert s
  | .supplyWarnClear => Sys2Proof.Machine.execSupplyWarnClear s
  | .amberHoldExpire => Sys2Proof.Machine.execAmberHoldExpire s
  | .amberVerifyDone back => Sys2Proof.Machine.execAmberVerifyDone back s
  | .supplyGoodFall => Sys2Proof.Machine.execSupplyGoodFall s
  | .tempSample code => Sys2Proof.Machine.execTempSample code s
  | .tempInvalid => Sys2Proof.Machine.execTempInvalid s
  | .rstNAssert => Sys2Proof.Machine.execRstNAssert s
  | .resetSequenceStart straps => Sys2Proof.Machine.execResetSequenceStart straps s
  | .imagePhase flash => Sys2Proof.Machine.execImagePhase flash s
  | .stackInitDone => Sys2Proof.Machine.execStackInitDone s
  | .flashRebuildDone r => Sys2Proof.Machine.execFlashRebuildDone r s
  | .fabricPhase => Sys2Proof.Machine.execFabricPhase s
  | .wsBypass => Sys2Proof.Machine.execWsBypass s
  | .wsExtest => Sys2Proof.Machine.execWsExtest s
  | .wsIntest => Sys2Proof.Machine.execWsIntest s
  | .wsMbist => Sys2Proof.Machine.execWsMbist s
  | .mirrorTileRequest src snapId t => Sys2Proof.Machine.execMirrorTileRequest src snapId t s
  | .mirrorTileAnswer src snapId t data => Sys2Proof.Machine.execMirrorTileAnswer src snapId t data s
  | .mirrorLossReport src snapId => Sys2Proof.Machine.execMirrorLossReport src snapId s
  | .roundOpenRefused src => Sys2Proof.Machine.execRoundOpenRefused src s
  | .bridgeSetFeaturesStatus ch opid => Sys2Proof.Machine.execBridgeSetFeaturesStatus ch opid s
  | .variantReloadDone variant => Sys2Proof.Machine.execVariantReloadDone variant s
  | .sramBankCopyDone => Sys2Proof.Machine.execSramBankCopyDone s

end Sys2Proof.Machine
end

