-- ==== Sys2Proof/Safety.lean ====
section
/-! DEFINITION. What counts as a sound state and as a run of commands, the kinds of commands, and the conditions under which they act, in the
terms that statements use. -/
namespace Sys2Proof.Machine

/-- Nothing is due: no flip (R58), no APPLY (R65) and no group APPLY (R66) at the boundary just passed, and no command to be ended ahead of a
DISCARD (R80). -/
def State.calm (s : State) : Bool := !s.flipDue && !s.applyDue && !s.groupDue && !s.abortDue

/-- The engine runs (R356, R442) and nothing is due. -/
def State.quiet (s : State) : Bool := 6 ≤ s.pin.phase && !s.pin.halted && s.calm

/-- The register ports answer (R443) and nothing is due. -/
def State.portOpen (s : State) : Bool := 2 ≤ s.pin.phase && s.calm

/-- The state x as a command leaves it: its sparse maps in canonical form, and the waiting commands as s had them. -/
def State.kept (s x : State) : State := { x.canon with pending := s.pending }

/-- A register write acknowledged on its port, with this ERR (R391). -/
def State.acked (s : State) (port : RegPort) (err : Bool) : State := { s with out := { s.out with acks := s.out.acks ++ [(port, err)] } }

/-- The command at the head of a queue, as it is when it is evaluated. -/
def State.newest (s : State) (q : Queue) : Run := { s.newRun q with best := s.bestEffort q (s.newRun q) }

/-- The state in which the command at the head of a queue is evaluated. -/
def State.taken (s : State) (q : Queue) : State := s.setRun q (some (s.newest q))

end Sys2Proof.Machine

namespace Sys2Proof.Safety

open Sys2Proof.Machine

/-- The commands given to the block in one order, one after the other, end in this state. -/
inductive Runs : State → List Instr → State → Prop where
  | nil (s : State) : Runs s [] s
  | cons (s t u : State) (c : Instr) (cs : List Instr) : exec c s = .next t → Runs t cs u → Runs s (c :: cs) u

/-- A command answers a next state, and that state has a property. -/
def Leads (c : Instr) (s : State) (P : State → Prop) : Prop := ∃ t, exec c s = .next t ∧ P t

/-- The state is sound: every sparse map is in canonical form, so that equal contents are equal data. -/
abbrev Sound (s : State) : Prop := s.wf = true

/-- Sound, the engine running, nothing due. -/
abbrev Ready (s : State) : Prop := s.wf = true ∧ s.quiet = true

/-- Sound, the register ports answering, nothing due. -/
abbrev Open (s : State) : Prop := s.wf = true ∧ s.portOpen = true

/-- Two states differ in their live registers at most. -/
def OnlyLive (s t : State) : Prop := t = { s with live := t.live }

/-- Every live register but those named reads as before. -/
def RegsBut (l : List Nat) (s t : State) : Prop := ∀ o, o ∉ l → t.reg o = s.reg o

/-- Every byte of memory reads as before. -/
def SameMem (s t : State) : Prop := ∀ a, t.byte a = s.byte a

/-- A queue's command has completed: nothing runs there, DONE_SEQ names it (R424). -/
def Done (q : Queue) (seq : Nat) (t : State) : Prop := t.run q = none ∧ t.doneSeq q = seq

/-- The command that runs is the last one posted to its queue. -/
abbrev Last (s : State) (q : Queue) (r : Run) : Prop := s.run q = some r ∧ s.posted q = r.seq ∧ s.queues.length = 4 ∧ r.seq < 2 ^ 32

/-- The record at the head of a queue is the last one posted, has the opcode, passes R422 and R493, and can be evaluated now (R380, R138). -/
abbrev Fresh (s : State) (q : Queue) (opc : Nat) : Prop :=
  s.run q = none ∧ s.waiting q = true ∧ s.headFault q = none ∧ (s.newRun q).opc = opc ∧ s.restoring q = false ∧ s.layoutBad (s.newRun q) = false ∧
    (needsFabric opc = true → s.f oFabStat 23 12 ≠ 0) ∧ s.posted q = s.nextSeq q ∧ s.queues.length = 4

/-- A command has completed with a result and detail words: DONE_SEQ names it, and its completion record stands in the ring (R423, R424). -/
def Ended (s : State) (q : Queue) (r : Run) (code : Nat) (dw : List Nat) (t : State) : Prop :=
  Done q r.seq t ∧ t.bytes (s.compAddr q r.seq) 32 = compBytes r.seq r.opc code (r.best.toNat + 128 * s.phaseOf q r.seq) r.ext s.beat r.tag dw

/-- A command that has issued everything, with nothing in flight, and no reason of its own to end otherwise. -/
abbrev Spent (s : State) (q : Queue) (r : Run) : Prop :=
  Last s q r ∧ r.issued = true ∧ r.aborting = false ∧ s.jobsOf q r.seq = [] ∧ nth 0 r.info 0 = 0 ∧ s.b oAmberStat 1 = false

/-- The rows of the table that take up the commands of a queue. -/
def queueRow (q : Queue) : Instr → Bool
  | .barrier p => p == q
  | .gather | .gatherSparse => q == .gq
  | .fold | .foldSparse | .closeStep => q == .aq
  | .update | .updateSparse | .matrix | .commit | .discard => q == .uq
  | .reshard | .emitCyan | .snapshot | .restore | .stashPut | .stashGet | .slateUpdate | .fence => q == .sq
  | .prefetch | .demote | .keep | .release | .clear | .refetch => q == .sq
  | _ => false

/-- Every line of the stack is sound and every channel port works (R358, R402). -/
abbrev LinesGood (s : State) : Prop := s.badLines = [] ∧ s.reg oChFailed = 0#64

/-- A count field of 32 bits one higher, or at its largest value (R457). -/
def next32 (n : Nat) : Nat := min (n + 1) (2 ^ 32 - 1)

/-- Nothing waits behind an event of the flash: no block to erase, no host burst, no multicast slot. -/
abbrev NothingWaits (s : State) : Prop := s.tier.reclaim = [] ∧ s.io.bursts = [] ∧ s.cyan.held = []

/-- The commands that act while the block is held in reset: the pins that begin and end it, the supply pins, the test wrapper (R417, R441). -/
def actsInReset : Instr → Bool
  | .resetSequenceStart _ | .rstNAssert | .supplyGoodFall | .supplyWarnAssert | .supplyWarnClear => true
  | .wsBypass | .wsExtest | .wsIntest | .wsMbist => true
  | _ => false

/-- The commands of the register ports (R392 to R394). -/
def portCommand : Instr → Bool
  | .doorbell _ _ | .qCfgWrite _ _ | .check _ | .apply _ | .cancel _ | .load _ | .quiesce _ | .fabSwap _ | .mxSwap _ => true
  | .svMir0Read _ | .svImgWr _ _ | .imgClear _ _ | .imgCommit _ _ | .svReset _ _ | .registerWrite _ _ _ => true
  | _ => false

/-- The commands that something outside the engine's own work brings, and that act, or are answered, before READY or while it is halted:
ports, pins, the beat, the peer links, the reset sequence. Every other command is the engine's own work. -/
def outside : Instr → Bool
  | .imgProgramDone | .hmRead _ _ _ _ _ | .hmWrite _ _ _ _ _ _ | .chReadReturn _ _ _ _ _ | .chWriteResponse _ _ _ => true
  | .chReadTimeout _ _ | .chPortFail _ | .beatBoundary _ | .beatSyncMsg _ | .syncFault | .beatRelock | .masterLost => true
  | .peerFrame _ _ | .peerPortUp _ _ _ | .laneSwap _ _ | .sequencerHalt | .sequencerCorrected | .amberHoldExpire => true
  | .tempSample _ | .tempInvalid | .imagePhase _ | .stackInitDone | .flashRebuildDone _ | .fabricPhase => true
  | _ => false

/-- The engine's own work (R356, R442). -/
def engineWork (c : Instr) : Bool := !actsInReset c && !portCommand c && !outside c

/-- A register whose fields are RW, W1C and RO alone, and whose write does nothing else (R13, R457). -/
def plainRegister (o : Nat) : Bool :=
  !(0xD000 ≤ o && o < 0xE000) && o != oCtl && o != oStageCtl && !inFam o 0x4000 32 4 && !inFam o 0x4008 32 4 && o != oFabSwap &&
    o != oMxSwap && !isStaged o

end Sys2Proof.Safety
end

