-- ==== Sys2Proof/Certificates/Slice0/Obligations.lean ====
section
/-! DEFINITION. What the rules of the manual say of this block, stated for the provers: one proposition each, by group of commands. -/
open Sys2Proof Sys2Proof.Machine Sys2Proof.Safety

/-! The machine as a whole -/

/-- A step takes the command at the front of the queue and is exec of it on the state with the queue's rest. With no command waiting the block idles:
the model's choice, assumption log 11. -/
def Obligations.StepRunsTheFrontCommand : Prop :=
  (∀ (s : State) (c : Instr) (rest : List Instr), s.pending = c :: rest → step s = exec c { s with pending := rest }) ∧
  (∀ s : State, (s.pending = [] → step s = .next s) ∧
    ∀ (t : State) (c : Instr) (rest : List Instr), s.pending = c :: rest → step s = .next t → t.pending = rest)

/-- The state after reset is sound, in the phase HELD, with nothing in memory, in the queue, or on its way out. -/
def Obligations.ResetIsSoundAndHeld : Prop :=
  State.reset.wf = true ∧ State.reset.pin.phase = 0 ∧ State.reset.pin.halted = false ∧ State.reset.pending = [] ∧ State.reset.mem = [] ∧
    State.reset.jobs = [] ∧ State.reset.out = ⟨[], [], [], [], [], [], []⟩ ∧ (∀ q, State.reset.run q = none) ∧
    ∀ q, State.reset.entries q = 4096 ∧ State.reset.enabled q = false ∧ State.reset.waiting q = false

/-- After reset, over either port, the fields of BLOCK_ID and of CAPS0 to CAPS3 read the values of the ZE-256 that the manual gives them, reserved
fields 0, and a format is reported supported exactly when its index is 0 to 8 (R5, R7, R8, R9, R10); a write of any of the six identity registers is
acknowledged and changes nothing. -/
def Obligations.IdentityRegistersReadAsFixed : Prop :=
  (∀ port : RegPort,
    (State.reset.readPort port oBlockId = 0x4B525A4501000000#64 ∧ State.reset.readPort port oBlockVersion = 0x0000000300000001#64) ∧
    (let w := State.reset.readPort port oCaps0
     fld w 63 56 = 0 ∧ fld w 55 52 = 4 ∧ fld w 51 40 = 0x200 ∧ fld w 39 28 = 0x080 ∧ fld w 27 24 = 4 ∧ fld w 23 16 = 0x28 ∧ fld w 15 12 = 8 ∧
       fld w 11 0 = 0x100) ∧
    (let w := State.reset.readPort port oCaps1
     fld w 63 56 = 0 ∧ fld w 55 48 = 0x80 ∧ fld w 47 40 = 0x20 ∧ fld w 39 32 = 0x10 ∧ fld w 31 28 = 4 ∧ fld w 27 24 = 0 ∧ fld w 23 16 = 2 ∧
       fld w 15 8 = 0x14 ∧ fld w 7 0 = 0x40) ∧
    (let w := State.reset.readPort port oCaps2
     fld w 63 48 = 0 ∧ fld w 47 40 = 0x80 ∧ fld w 39 32 = 8 ∧ fld w 31 28 = 1 ∧ fld w 27 24 = 8 ∧ fld w 23 16 = 8 ∧ fld w 15 8 = 0x20 ∧
       fld w 7 0 = 0x40) ∧
    (let w := State.reset.readPort port oCaps3
     fld w 63 58 = 0 ∧ fld w 57 48 = 0x100 ∧ (∀ n, n < 16 → bit w (32 + n) = decide (n ≤ 8)) ∧ fld w 31 16 = 0xFFFF ∧ fld w 15 8 = 4 ∧
       fld w 7 0 = 0x40)) ∧
  ∀ (s : State) (o : Nat) (w : Word), Open s → o ∈ [oBlockId, oBlockVersion, oCaps0, oCaps1, oCaps2, oCaps3] →
    exec (.registerWrite .hcp o w) s = .next (s.acked .hcp false)

/-- Every step keeps the canonical form of registers, staged copies, memory, tier pages, flash mapping and flash blocks. -/
def Obligations.EveryStepKeepsTheStateSound : Prop :=
  ∀ s t : State, s.wf = true → step s = .next t → t.wf = true

/-- Every command answers a next state, whatever state it meets: none is refused and none faults. No command touches the commands that wait. In reset
the four instructions of the test wrapper stand in its instruction register once shifted in and change nothing else of the block, but that MBIST
leaves a pass bit for each memory, a value the manual does not give, in the data register. Outside reset the wrapper has no authority over the
block: each leaves it as it is (R386, R417). A block held in reset stays as it is under any run of commands but those of its reset, supply and
wrapper pins. Before READY (R442) and while the sequencer is halted (R356) the engine's own work does nothing; before the ports answer (R443) a
register access leaves every content as it is. -/
def Obligations.EveryCommandAnswersAndWorkWaitsForReady : Prop :=
  (∀ (c : Instr) (s : State), ∃ t, exec c s = .next t) ∧
  (∀ (c : Instr) (s t : State), exec c s = .next t → t.pending = s.pending) ∧
  ((∀ s : State, s.wf = true → s.pin.phase = 0 →
    exec .wsBypass s = .next (s.wrapper 0x00) ∧ exec .wsExtest s = .next (s.wrapper 0x01) ∧ exec .wsIntest s = .next (s.wrapper 0x02) ∧
    (∀ op, s.wrapper op = { s with pin := { s.pin with wir := op } }) ∧
    Leads .wsMbist s (fun t => t = { s with pin := { s.pin with wir := 0x10, wdr := Config.freeMbist s.freeCtr }, freeCtr := t.freeCtr })) ∧
  ∀ (s : State) (c : Instr), s.wf = true → s.pin.phase ≠ 0 → (c = .wsBypass ∨ c = .wsExtest ∨ c = .wsIntest ∨ c = .wsMbist) →
    exec c s = .next s) ∧
  (∀ (s t : State) (cs : List Instr), s.pin.phase = 0 → (∀ c ∈ cs, actsInReset c = false) → Runs s cs t → t = s) ∧
  ((∀ (c : Instr) (s : State), engineWork c = true → (s.pin.phase < 6 ∨ s.pin.halted = true) → exec c s = .next s) ∧
  ∀ (c : Instr) (s : State), portCommand c = true → s.pin.phase < 2 → s.wf = true → exec c s = .next s)

/-! The register ports -/

/-- A write over HCP of a register of plain fields: a W1C bit written 1 clears, an RW bit takes what is written, every other bit stays; nothing else in
the block changes, and the write is acknowledged with HC_ERR 0 (R13, R391, R392, R443, R457). An offset that holds no register has neither and stays
0. A write over SVP outside the service group, whether or not a register sits there, is refused with SV_ERR: SV_REFUSED counts it and names the word
offset and REFUSED_AUTHORITY, and nothing else changes (R386, R391, R392, R394). A write of the mirror or of an RO register of the service group
changes nothing over either port (R467). A write of CTL: SCRATCH and QUIESCE are kept, the issue of tiles stops at the next boundary and not before
(R463, R464). -/
def Obligations.RegisterWritesActFieldByField : Prop :=
  (∀ (s : State) (o : Nat) (w : Word), Open s → o < 2 ^ 20 → o % 8 = 0 → plainRegister o = true →
    Leads (.registerWrite .hcp o w) s (fun t => OnlyLive (s.acked .hcp false) t ∧ RegsBut [o] s t ∧
      ∀ i, i < 64 → bit (t.reg o) i =
        if bit (w1cMask o) i && bit w i then false else if bit (rwMask o) i then bit w i else bit (s.reg o) i)) ∧
  (∀ (s : State) (o : Nat) (w : Word), Open s → o < 2 ^ 20 → o % 8 = 0 →
    (¬ (0xD000 ≤ o ∧ o < 0xE000) → Leads (.registerWrite .svp o w) s (fun t => OnlyLive (s.acked .svp true) t ∧ RegsBut [oSvRefused] s t ∧
      t.f oSvRefused 63 44 = min (s.f oSvRefused 63 44 + 1) (2 ^ 20 - 1) ∧ t.f oSvRefused 36 20 = o / 8 ∧ t.f oSvRefused 7 0 = 0x17)) ∧
    ∀ port, 0xD000 ≤ o → o < 0xE000 → o ≠ oSvCtl → o ≠ oSvImgWr → exec (.registerWrite port o w) s = .next (s.acked port false)) ∧
  (∀ (s : State) (w : Word), Open s → Leads (.quiesce w) s (fun t => OnlyLive s t ∧ RegsBut [oCtl] s t ∧
    t.f oCtl 63 32 = fld w 63 32 ∧ t.b oCtl 0 = bit w 0 ∧ t.f oCtl 31 1 = s.f oCtl 31 1 ∧ t.quiesced = s.quiesced))

/-- An ST write changes the ST fields of the staged copy and no live register (R458): in state 0 that alone, in states 2, 3 and 5 the staging state goes
back to 0, and while a CHECK runs the write is noted (R64, R459). CHECK from IDLE or APPLIED starts a check of the staged set as it stands (R50,
R64, R459); CHECKED, APPLY with a beat ahead or 0 arms the set for that boundary, or the next (R65), and with a beat that has passed it stays
CHECKED and reports 0x2F; LOAD copies the live ST fields of every register (R62). -/
def Obligations.StagedCopiesAreWrittenCheckedAndArmed : Prop :=
  (∀ (s : State) (o : Nat) (w : Word), Open s → o < 2 ^ 20 → o % 8 = 0 → isStaged o = true → s.stageState ≤ 5 → s.stageState ≠ 4 →
    Leads (.registerWrite .hcp o w) s (fun t =>
      (∀ p, t.stg p = if p = o then mergeSt o w (s.stg o) else s.stg p) ∧ SameMem s t ∧ RegsBut [oStageResult] s t ∧
      t.stageState = (if s.stageState = 1 then 1 else 0) ∧ t.f oStageResult 63 4 = s.f oStageResult 63 4 ∧
      t.stage = (if s.stageState = 1 then { s.stage with dirty := true } else s.stage))) ∧
  ((∀ (s : State) (w : Word), Open s → s.alive = true → (s.stageState = 0 ∨ s.stageState = 5) → bit w 0 = true → bit w 1 = false →
    bit w 2 = false → bit w 3 = false →
    exec (.check w) s = .next { (s.setF oStageCtl 7 6 (fld w 7 6)).setF oStageResult 3 0 1 with
      stage := { s.stage with snap := s.staged, dirty := false } }) ∧
  (∀ (s : State) (w : Word), Open s → s.alive = true → s.stageState = 2 → bit w 1 = true → bit w 0 = false → bit w 2 = false →
    bit w 3 = false →
    exec (.apply w) s = .next
      (if bit w 6 = false ∧ s.f oStageApplyBeat 47 0 ≠ 0 ∧ s.f oStageApplyBeat 47 0 ≤ s.beat then
        (s.setF oStageCtl 7 6 (fld w 7 6)).setF oStageResult 15 8 0x2F
      else { (s.setF oStageCtl 7 6 (fld w 7 6)).setF oStageResult 3 0 3 with
        stage := { s.stage with armScope := bit w 6, groupAt := none, missed := false,
                                armG := if s.f oStageApplyBeat 47 0 = 0 then s.beat + 1 else s.f oStageApplyBeat 47 0 } })) ∧
  ∀ (s : State) (w : Word), Open s → s.alive = true → s.stageState = 0 → bit w 3 = true → bit w 0 = false → bit w 1 = false →
    Leads (.load w) s (fun t => (∀ p, isStaged p = true → t.stg p &&& stMask p = s.reg p &&& stMask p) ∧ SameMem s t ∧
      RegsBut [oStageCtl] s t ∧ t.stage = s.stage))

/-- In state 4 an ST write is dropped and sets WRITE_DROPPED, and CANCEL is ignored (only VIEW and SCOPE are written, as in every state); in state 3
CANCEL withdraws readiness: the state is CHECKED again and nothing was sent (R67). -/
def Obligations.ReadinessInFlightIsNotWithdrawn : Prop :=
  (∀ (s : State) (o : Nat) (w : Word), Open s → o < 2 ^ 20 → o % 8 = 0 → isStaged o = true → s.stageState = 4 →
    exec (.registerWrite .hcp o w) s = .next ((s.setB oStageResult 7 true).acked .hcp false)) ∧
  (∀ (s : State) (w : Word), Open s → s.stageState = 4 → bit w 2 = true →
    exec (.cancel w) s = .next (s.setF oStageCtl 7 6 (fld w 7 6))) ∧
  ∀ (s : State) (w : Word), Open s → s.stageState = 3 → bit w 2 = true → bit w 0 = false → bit w 1 = false → bit w 3 = false →
    exec (.cancel w) s = .next ((s.setF oStageCtl 7 6 (fld w 7 6)).setF oStageResult 3 0 2)

/-- The end of a CHECK (R50, R51, R64, R459): the staged set as it stood at the start is checked; without a failure and without a write since, the state
is CHECKED, else IDLE with the code, SUPERSEDED for a write; the four reports are written; the live set is as it was. An APPLY, local or of a group,
that is due takes effect, shown where no round to a Cyan buffer is in flight (R22): every ST field but BEAT_CFG's (R26) becomes live, the staging
state is APPLIED at the present beat with code 0, the staged copies stay, and a group's APPLY clears PROFILE_DIVERGED (R65, R66, R466). A member
whose readiness got no answer for VOTE_TIMEOUT beats is CHECKED again with FAULT_PEER_LOST, a detected fault of class 0x09 that is captured and
logged; PROFILE_DIVERGED stays as it was. One that hears no other member of its group at a boundary is CHECKED again the same way, and
PROFILE_DIVERGED is set (R68, R354). -/
def Obligations.ChecksEndAndSetsAreApplied : Prop :=
  (∀ s : State, Ready s → s.stageState = 1 →
    Leads .checkComplete s (fun t =>
      t.stageState = (if (s.checkAll s.stage.snap).code = 0 ∧ s.stage.dirty = false then 2 else 0) ∧
      t.f oStageResult 15 8 = (if s.stage.dirty then 0x2F else (s.checkAll s.stage.snap).code % 256) ∧
      t.f oStageResult 63 16 = s.beat ∧ t.staged = s.staged ∧
      (∀ k, k < 4 → fld (t.reg (oAdmitReport k)) 63 1 = fld (nth 0#64 (s.checkAll s.stage.snap).reports k) 63 1))) ∧
  ((∀ s : State, s.wf = true → s.pin.phase = 6 → s.flipDue = false → s.applyDue = true → s.abortDue = false → s.roundTo false = false →
    s.roundTo true = false → Leads .applyTakeEffect s (fun t => t.stageState = 5 ∧ t.f oStageResult 15 8 = 0 ∧ t.f oStageResult 63 16 = s.beat ∧
      (∀ o, isStaged o = true → o ≠ oBeatCfg → t.reg o &&& stMask o = s.stg o &&& stMask o) ∧
      t.staged = s.staged ∧ t.stage.inForce = s.stage.chk)) ∧
  (∀ s : State, s.wf = true → s.pin.phase = 6 → s.flipDue = false → s.applyDue = false → s.groupDue = true → s.abortDue = false →
    s.roundTo false = false → s.roundTo true = false →
    Leads .groupApply s (fun t => t.stageState = 5 ∧ t.f oStageResult 15 8 = 0 ∧ t.f oStageResult 63 16 = s.beat ∧
      (∀ o, isStaged o = true → o ≠ oBeatCfg → t.reg o &&& stMask o = s.stg o &&& stMask o) ∧
      t.staged = s.staged ∧ t.stage.inForce = s.stage.chk ∧ t.b oStat 57 = false)) ∧
  (∀ s : State, Ready s → s.stageState = 4 → s.stage.groupAt = none → s.stage.readyAt + s.voteTimeout ≤ s.beat →
    Leads .groupApplyTimeout s (fun t => t.stageState = 2 ∧ t.f oStageResult 15 8 = 0x22 ∧ t.b oStat 57 = s.b oStat 57 ∧
      t.b oFaultRecord 63 = true ∧ (s.b oFaultRecord 63 = false → t.f oFaultRecord 55 48 = 0x09) ∧
      t.f oFaultLog 63 32 = next32 (s.f oFaultLog 63 32) ∧ t.staged = s.staged)) ∧
  ∀ (s : State) (ns : Int), Ready s → s.stageState = 4 → s.stage.groupAt = none →
    s.stagedMates (fld (s.stg oCommitGroup) 39 32) ≠ [] → (∀ m ∈ s.stagedMates (fld (s.stg oCommitGroup) 39 32), m.beat ≠ s.beat) →
    Leads (.beatBoundary ns) s (fun t => t.stageState = 2 ∧ t.f oStageResult 15 8 = 0x22 ∧ t.b oStat 57 = true ∧ t.staged = s.staged))

/-! Queue registers, swaps, service group -/

/-- A doorbell of value v is accepted when the queue is enabled with its ring zeroed, v − DONE_SEQ ≤ N and v − POSTED < 2^31 modulo 2^32: POSTED becomes
v (shown where a command runs or the record at the head passes R422, so that nothing completes at once). Any other doorbell sets DB_ERR alone (R425,
R443, R462). Setting ENABLE of a queue that is disabled (R426): BASE_SEQ and a LOG2_ENTRIES from 6 to 16 of the same write take effect first, POSTED
and DONE_SEQ become BASE_SEQ − 1, and the ring is being zeroed. When that ends the ring of N completions reads zero, READY sets, and no other byte
has changed. A write of Q_CFG of an enabled queue (R426): a change of BASE_SEQ or LOG2_ENTRIES sets CFG_ERR and changes neither; ENABLE written 1
again has no effect; ENABLE is cleared, with READY, only when nothing is outstanding, and otherwise CFG_ERR sets. A LOG2_ENTRIES outside 6 to 16
written to a disabled queue keeps the field and sets CFG_ERR. -/
def Obligations.QueueRegistersAct : Prop :=
  (∀ (s : State) (q : Queue) (w : Word), Open s →
    let v := fld w 31 0
    let ok := s.alive = true ∧ s.enabled q = true ∧ s.b (oQStat (qIdx q)) 0 = true ∧ sub32 v (s.doneSeq q) ≤ s.entries q ∧
      sub32 v (s.posted q) < 2 ^ 31
    (¬ ok → exec (.doorbell q w) s = .next (s.setB (oQStat (qIdx q)) 2 true)) ∧
    (ok → (s.run q ≠ none ∨ (s.setF (oQDoneSeq (qIdx q)) 63 32 v).headFault q = none) →
      exec (.doorbell q w) s = .next (s.setF (oQDoneSeq (qIdx q)) 63 32 v))) ∧
  ((∀ (s : State) (q : Queue) (w : Word), Open s → s.pin.phase = 6 → s.queues.length = 4 → s.enabled q = false → bit w 0 = true → 6 ≤ fld w 12 8 → fld w 12 8 ≤ 16 →
    Leads (.qCfgWrite q w) s (fun t => t.baseSeq q = fld w 63 32 ∧ t.entries q = 2 ^ fld w 12 8 ∧ t.enabled q = true ∧
      t.posted q = sub32 (fld w 63 32) 1 ∧ t.doneSeq q = sub32 (fld w 63 32) 1 ∧ (t.queue q).zeroing = true ∧ t.run q = none ∧
      RegsBut [oQCfg (qIdx q), oQDoneSeq (qIdx q)] s t ∧ t.mem = s.mem)) ∧
  ∀ (s : State) (q : Queue), Ready s → s.queues.length = 4 → (s.queue q).zeroing = true →
    Leads (.queueRingZeroed q) s (fun t => t.b (oQStat (qIdx q)) 0 = true ∧ (t.queue q).zeroing = false ∧ RegsBut [oQStat (qIdx q)] s t ∧
      ∀ a, t.byte a = if 0x39000000 + 0x200000 * qIdx q ≤ a ∧ a < 0x39000000 + 0x200000 * qIdx q + 32 * s.entries q then 0#8 else s.byte a)) ∧
  ((∀ (s : State) (q : Queue) (w : Word), Open s → s.enabled q = true →
    let same := fld w 63 32 = s.baseSeq q ∧ fld w 12 8 = s.f (oQCfg (qIdx q)) 12 8
    Leads (.qCfgWrite q w) s (fun t => t.baseSeq q = s.baseSeq q ∧ t.entries q = s.entries q ∧
      t.enabled q = (bit w 0 || s.posted q != s.doneSeq q) ∧ t.b (oQStat (qIdx q)) 0 = (s.b (oQStat (qIdx q)) 0 && t.enabled q) ∧
      t.b (oQStat (qIdx q)) 3 = (s.b (oQStat (qIdx q)) 3 || !decide same || (!bit w 0 && s.posted q != s.doneSeq q)) ∧
      t.posted q = s.posted q ∧ t.doneSeq q = s.doneSeq q ∧ t.mem = s.mem)) ∧
  ∀ (s : State) (q : Queue) (w : Word), Open s → s.enabled q = false → bit w 0 = false → (fld w 12 8 < 6 ∨ 16 < fld w 12 8) →
    Leads (.qCfgWrite q w) s (fun t => OnlyLive s t ∧ t.baseSeq q = fld w 63 32 ∧ t.entries q = s.entries q ∧ t.enabled q = false ∧
      t.b (oQStat (qIdx q)) 3 = true ∧ RegsBut [oQCfg (qIdx q), oQStat (qIdx q)] s t))

/-- FAB_SWAP retires a lane, MX_SWAP a row (R137, R138, R143, R224, R227): the unit's RETIRED bit and the family's RETIRED flag set, and while a spare
is in the pool the lowest takes the logical number. GO clear, a number outside the units, a unit already retired, or a halted sequencer: nothing
happens. -/
def Obligations.SwapsRetireALaneOrARow : Prop :=
  (∀ (s : State) (w : Word), Open s → (bit w 63 = false ∨ s.pin.halted = true ∨ 264 ≤ fld w 8 0 ∨ s.b (oFabRetired (fld w 8 0 / 64)) (fld w 8 0 % 64) = true) →
    exec (.fabSwap w) s = .next s) ∧
  (∀ (s : State) (w : Word) (i r : Nat), Open s → bit w 63 = true → s.pin.halted = false → fld w 8 0 < 264 →
    s.b (oFabRetired (fld w 8 0 / 64)) (fld w 8 0 % 64) = false → placeOf s.fab.laneMap (fld w 8 0) = some i →
    (pool 264 s.fab.laneMap s.lanesOut).head? = some r →
    Leads (.fabSwap w) s (fun t => t.fab.laneMap = setNth s.fab.laneMap i r ∧ t.b oFabStat 1 = true ∧
      t.b (oFabRetired (fld w 8 0 / 64)) (fld w 8 0 % 64) = true ∧ t.f oFabStat 23 12 = s.fab.laneMap.length % 4096 ∧
      t.f oFaultLog 63 32 = next32 (s.f oFaultLog 63 32) ∧ t.queues = s.queues)) ∧
  (∀ (s : State) (w : Word), Open s → (bit w 63 = false ∨ s.pin.halted = true ∨ 132 ≤ fld w 7 0 ∨ s.b (oMxRetired (fld w 7 0 / 64)) (fld w 7 0 % 64) = true) →
    exec (.mxSwap w) s = .next s) ∧
  ∀ (s : State) (w : Word) (i r : Nat), Open s → bit w 63 = true → s.pin.halted = false → fld w 7 0 < 132 →
    s.b (oMxRetired (fld w 7 0 / 64)) (fld w 7 0 % 64) = false → placeOf s.fab.rowMap (fld w 7 0) = some i →
    (pool 132 s.fab.rowMap s.rowsOut).head? = some r →
    Leads (.mxSwap w) s (fun t => t.fab.rowMap = setNth s.fab.rowMap i r ∧ t.b oMxStat 1 = true ∧
      t.b (oMxRetired (fld w 7 0 / 64)) (fld w 7 0 % 64) = true ∧ t.f oMxStat 23 12 = s.fab.rowMap.length % 4096 ∧
      t.f oFaultLog 63 32 = next32 (s.f oFaultLog 63 32) ∧ t.queues = s.queues)

/-- A read of SV_MIR0 through a port copies the 32 sources into that port's latch and changes nothing else the spec names (R467, R468). Words pushed
over the service group build the image buffer, IMG_CLEAR empties it, and words while BUSY, or beyond 1 MiB, are ignored (R394). IMG_COMMIT from
phase 3 on (R394, R454): a buffer that fails validation is reported REFUSED_LAYOUT and programs nothing; a valid one makes BUSY 1 and gives the
bridge channel, for each LUN of channel 0, the erase of its block 0 and the program of every 16 KiB of the image into its pages. When they have
ended BUSY clears with DONE. Without the key nothing happens. -/
def Obligations.ServiceGroupMirrorsAndPrograms : Prop :=
  (∀ (s : State) (port : RegPort), Open s → Leads (.svMir0Read port) s (fun t =>
    t.latchOf port = mirrorSources.map s.regValue ∧ (∀ other, other ≠ port → t.latchOf other = s.latchOf other) ∧
    t = { s with mirror := t.mirror, freeCtr := t.freeCtr })) ∧
  ((∀ (s : State) (port : RegPort) (w : Word), Open s → s.serviceShut port = false → s.b oSvImgStat 0 = false → s.pin.image.length < 2 ^ 17 →
    exec (.svImgWr port w) s = .next (({ s with pin := { s.pin with image := s.pin.image ++ [w] } } : State).setF oSvImgStat 63 32
      (s.pin.image.length + 1))) ∧
  (∀ (s : State) (port : RegPort) (w : Word), Open s → (s.serviceShut port = true ∨ s.b oSvImgStat 0 = true ∨ 2 ^ 17 ≤ s.pin.image.length) →
    exec (.svImgWr port w) s = .next s) ∧
  ∀ (s : State) (port : RegPort) (w : Word), Open s → s.serviceShut port = false → bit w 2 = true → bit w 1 = false → bit w 0 = false →
    exec (.imgClear port w) s = .next (({ s with pin := { s.pin with image := [] } } : State).setF oSvImgStat 63 32 0)) ∧
  ((∀ (s : State) (port : RegPort) (w : Word), Open s → 3 ≤ s.pin.phase → s.b oSvImgStat 0 = false → bit w 2 = false → bit w 1 = true →
    bit w 0 = false → fld w 63 56 = 0xA5 → ∀ e, checkImage s.imageBytes s.me = .inl e →
    exec (.imgCommit port w) s = .next (s.setF oSvImgStat 15 8 0x16)) ∧
  (∀ (s : State) (port : RegPort) (w : Word), Open s → 3 ≤ s.pin.phase → s.b oSvImgStat 0 = false → bit w 2 = false → bit w 1 = true →
    bit w 0 = false → fld w 63 56 = 0xA5 → ∀ x, checkImage s.imageBytes s.me = .inr x →
    Leads (.imgCommit port w) s (fun t => t.b oSvImgStat 0 = true ∧ t.pin.imgBusy = true ∧ RegsBut [oSvImgStat] s t ∧ t.mem = s.mem ∧
      ∀ l, s.channels ≠ 0 → l < s.luns →
        (∃ o ∈ t.tier.ops ++ t.tier.backlog, o.ch = 0 ∧ o.kind = 3 ∧ o.addr = addrOf (physOf ⟨0, l, 0, 0, 0⟩)) ∧
        ∀ k, k < cdiv (leAt s.imageBytes 8 4) 16384 → ∃ o ∈ t.tier.ops ++ t.tier.backlog, o.ch = 0 ∧ o.kind = 2 ∧
          o.addr = addrOf (physOf ⟨0, l, 0, 0, k⟩) ∧ o.data = unitData (s.imageBytes.take (leAt s.imageBytes 8 4)) k)) ∧
  (∀ (s : State) (port : RegPort) (w : Word), Open s → bit w 2 = false → fld w 63 56 ≠ 0xA5 →
    exec (.imgCommit port w) s = .next s ∧ exec (.svReset port w) s = .next s) ∧
  ∀ s : State, s.wf = true → s.pin.phase ≠ 0 → s.pin.imgBusy = true → s.imageOps = false → s.pin.rstHeld = false →
    exec .imgProgramDone s = .next ((({ s with pin := { s.pin with imgBusy := false } } : State).setB oSvImgStat 0 false).setF oSvImgStat 15 8 0))

/-! Host memory port, channel ports, background work -/

/-- A read burst with a credit, within one line and populated (or in the Cyan view), that needs no tiered page and meets no uncorrectable line, ends
GOOD with the bytes that its addresses are served from (R60, R282, R396 to R398); nothing in memory or in a register changes, the credit is back,
and of the ports only the tags of the channel requests advance. One that crosses a line, lies in unpopulated space or carries a reserved HM_QOP ends
NO_TARGET with zero data, is counted and named in HM_LAST (R397, R399). -/
def Obligations.HostReadsReturnWhatTheAddressesHold : Prop :=
  ∀ (s : State) (sub op addr beats tag : Nat), s.wf = true → s.pin.phase ≠ 0 → s.calm = true → s.io.bursts = [] → s.cyan.held = [] →
    (∀ w ∈ s.tier.waits, w.q ≠ 4) → s.io.credits.length = 32 → sub < 32 → 0 < (s.credits sub).1 → 1 ≤ beats → beats ≤ 4 → addr % 64 = 0 → addr < 2 ^ 48 → tag < 256 →
    let n := 64 * beats
    (op = 0 → addr % 256 + n ≤ 256 → (s.inView addr = true ∨ s.populated addr n = true) → s.addrPages (s.readAddrs addr n) = [] →
      (∀ a ∈ s.readAddrs addr n, s.badLine (a / 256) = false) →
      Leads (.hmRead sub op addr beats tag) s (fun t =>
        t.out.host = s.out.host ++ [⟨sub, false, tag, 0, (s.readAddrs addr n).map s.hostByte⟩] ∧ t.live = s.live ∧ t.mem = s.mem ∧
          t.io = { s.io with chTags := t.io.chTags })) ∧
    ((op = 2 ∨ op = 3 ∨ (op = 0 ∧ (256 < addr % 256 + n ∨ (s.inView addr = false ∧ s.populated addr n = false)))) →
      Leads (.hmRead sub op addr beats tag) s (fun t =>
        t.out.host = s.out.host ++ [⟨sub, false, tag, 3, List.replicate n 0#8⟩] ∧ t.mem = s.mem ∧ t.io = s.io ∧
          t.f oHmStat 23 8 = min (s.f oHmStat 23 8 + 1) 65535 ∧ t.f oHmLast 63 62 = 3 ∧ t.f oHmLast 47 6 = addr / 64 ∧
          RegsBut [oHmStat, oHmLast] s t))

/-- A write burst with its credits and beats, within one line of populated memory outside the tiers, whose enabled bytes nothing protects, ends GOOD:
the bytes that the mask enables take the data, every other byte of memory stays (R396 to R398); a burst that R61 or R326 protects any enabled byte
from ends REFUSED whole: no byte is written, and it is counted (R397). -/
def Obligations.HostWritesStoreTheEnabledBytesOrNone : Prop :=
  ∀ (s : State) (sub addr beats tag : Nat) (data : List Byte) (mask : List Bool), s.wf = true → s.pin.phase ≠ 0 → s.calm = true →
    s.io.bursts = [] → s.cyan.held = [] → (∀ w ∈ s.tier.waits, w.q ≠ 4) → s.io.credits.length = 32 → sub < 32 → 0 < (s.credits sub).1 →
    beats ≤ (s.credits sub).2 →
    1 ≤ beats → beats ≤ 4 → addr % 64 = 0 → data.length = 64 * beats → mask.length = 64 * beats → addr % 256 + 64 * beats ≤ 256 →
    s.inView addr = false → s.populated addr (64 * beats) = true → s.addrPages [addr] = [] →
    (s.writeRefused ⟨sub, true, addr, beats, tag, data, mask, false, 0⟩ = false → s.badLine (addr / 256) = false → s.reg oChFailed = 0#64 →
      Leads (.hmWrite sub addr beats tag data mask) s (fun t =>
        t.out.host = s.out.host ++ [⟨sub, true, tag, 0, []⟩] ∧ t.io = { s.io with chTags := t.io.chTags } ∧
          RegsBut [oAdmitReport 0, oAdmitReport 1, oAdmitReport 2] s t ∧
          ∀ a, t.byte a = if addr ≤ a ∧ a < addr + 64 * beats ∧ nth false mask (a - addr) = true then nth 0#8 data (a - addr) else s.byte a)) ∧
    (s.writeRefused ⟨sub, true, addr, beats, tag, data, mask, false, 0⟩ = true →
      Leads (.hmWrite sub addr beats tag data mask) s (fun t =>
        t.out.host = s.out.host ++ [⟨sub, true, tag, 1, []⟩] ∧ t.io = s.io ∧ t.mem = s.mem ∧
          t.f oHmStat 63 40 = min (s.f oHmStat 63 40 + 1) (2 ^ 24 - 1) ∧ RegsBut [oHmStat, oHmLast] s t))

/-- The transfers of a line, each answered under the attempt that is awaited (R402): a write response or a returned line that is good forgets the tries,
and the returned data stands in memory. A transfer that fails its parity or its response, or that does not come, is asked for again, up to three
times: the same line is requested on its port, and a masked fault of class 0x0A is logged; a first reading again for the check word is not one of
the three, and nothing else is touched. After the third the line is uncorrectable and its four beats count toward the failure of the port (R355). A
returned line whose check word fails is read again once, whatever retries the transfer has met (R358 step 1); at the second reading one wrong bit is
corrected, written back and counted in CHECK_STAT.CORRECTED (step 2), and a line of the fixed part that nothing explains, read by another than the
scrub, becomes uncorrectable, with nothing else changed (step 5). A channel port that failed three retries on each of 16 consecutive beats is
failed: CH_FAILED records it, the detected fault is captured, and from then on every line of it is uncorrectable (R355, R402). -/
def Obligations.LinesAreRetriedCheckedAndLost : Prop :=
  ((∀ (s : State) (line : Nat), s.wf = true → 3 ≤ s.pin.phase → s.b oChFailed (line % 64) = false →
    exec (.chWriteResponse line false (s.lineTries line true)) s = .next ((s.setTry line true 0 false).setPortRun (line % 64) 0)) ∧
  (∀ (s : State) (line n : Nat) (again : Bool), s.wf = true → 3 ≤ s.pin.phase → s.b oChFailed (line % 64) = false → line < 2 ^ 29 →
    s.lineTry line true = (n, again) → n < 3 →
    Leads (.chWriteResponse line true (n + again.toNat)) s (fun t => t.lineTry line true = (n + 1, again) ∧
      (∃ r ∈ t.out.chan.getLast?, r.port = line % 64 ∧ r.line = line ∧ r.write = true) ∧
      t.f oFaultLog 63 32 = next32 (s.f oFaultLog 63 32) ∧ t.badLines = s.badLines ∧ RegsBut [oFaultLog] s t)) ∧
  (∀ (s : State) (line n : Nat) (again : Bool) (data : List Byte) (cw : BitVec 32), s.wf = true → 3 ≤ s.pin.phase →
    s.b oChFailed (line % 64) = false → line < 2 ^ 29 → s.lineTry line false = (n, again) → n < 3 → s.io.bursts = [] → s.cyan.held = [] →
    ∀ c, (c = .chReadTimeout line (n + again.toNat) ∨ c = .chReadReturn line data cw false (n + again.toNat)) →
    Leads c s (fun t => t.lineTry line false = (n + 1, again) ∧
      (∃ r ∈ t.out.chan.getLast?, r.port = line % 64 ∧ r.line = line ∧ r.write = false) ∧
      t.f oFaultLog 63 32 = next32 (s.f oFaultLog 63 32) ∧ t.badLines = s.badLines ∧ RegsBut [oFaultLog] s t)) ∧
  (∀ (s : State) (line p : Nat) (again : Bool), s.wf = true → 3 ≤ s.pin.phase → s.b oChFailed (line % 64) = false → s.psLine line = some p →
    s.io.bursts = [] → s.cyan.held = [] → ∀ c, ((c = .chWriteResponse line true (3 + again.toNat) ∧ s.lineTry line true = (3, again)) ∨
      (c = .chReadTimeout line (3 + again.toNat) ∧ s.lineTry line false = (3, again))) →
    Leads c s (fun t => p ∈ t.badLines ∧ t.portRun (line % 64) = s.portRun (line % 64) + 4 ∧ RegsBut [oFaultLog] s t ∧
      t.f oFaultLog 63 32 = next32 (s.f oFaultLog 63 32))) ∧
  ∀ (s : State) (line p : Nat) (data : List Byte), s.wf = true → 3 ≤ s.pin.phase → s.b oChFailed (line % 64) = false →
    s.io.bursts = [] → s.cyan.held = [] → s.psLine line = some p → data.length = 256 →
    Leads (.chReadReturn line data (crc32c data) true (s.lineTries line false)) s (fun t => t.lineTries line false = 0 ∧
      p ∉ t.badLines ∧ t.live = s.live ∧ ∀ i, i < 256 → t.byte (256 * p + i) = nth 0#8 data i)) ∧
  ((∀ (s : State) (line n : Nat) (data : List Byte) (cw : BitVec 32), s.wf = true → 3 ≤ s.pin.phase → s.b oChFailed (line % 64) = false →
    line < 2 ^ 29 → s.io.bursts = [] → s.cyan.held = [] → s.lineTry line false = (n, false) → lineRead data cw ≠ .good →
    Leads (.chReadReturn line data cw true n) s (fun t => t.lineTry line false = (n, true) ∧ t.live = s.live ∧ t.mem = s.mem ∧
      t.badLines = s.badLines ∧ ∃ r ∈ t.out.chan.getLast?, r.port = line % 64 ∧ r.line = line ∧ r.write = false)) ∧
  (∀ (s : State) (line n p : Nat) (data d : List Byte) (cw : BitVec 32), s.wf = true → 3 ≤ s.pin.phase → s.b oChFailed (line % 64) = false →
    line < 2 ^ 29 → s.io.bursts = [] → s.cyan.held = [] → s.lineTry line false = (n, true) → lineRead data cw = .fixed d → d.length = 256 →
    s.psLine line = some p →
    Leads (.chReadReturn line data cw true (n + 1)) s (fun t => t.f oCheckStat 63 32 = next32 (s.f oCheckStat 63 32) ∧
      p ∉ t.badLines ∧ t.lineTry line false = (0, false) ∧ (∀ i, i < 256 → t.byte (256 * p + i) = nth 0#8 d i) ∧
      ∃ r ∈ t.out.chan.getLast?, r.port = line % 64 ∧ r.line = line ∧ r.write = true)) ∧
  ∀ (s : State) (line n p : Nat) (data : List Byte) (cw : BitVec 32), s.wf = true → 3 ≤ s.pin.phase → s.b oChFailed (line % 64) = false →
    s.io.bursts = [] → s.cyan.held = [] → s.lineTry line false = (n, true) → lineRead data cw = .bad → s.psLine line = some p →
    256 * p < 2 ^ 40 → ¬ (s.io.slice.1 ≤ line ∧ line < s.io.slice.1 + s.io.slice.2) →
    Leads (.chReadReturn line data cw true (n + 1)) s (fun t => p ∈ t.badLines ∧
      t.badLines = (if p ∈ s.badLines then s.badLines else s.badLines ++ [p]) ∧ t.mem = s.mem ∧ t.live = s.live)) ∧
  (∀ (s : State) (p : Nat), s.wf = true → s.pin.phase ≠ 0 → p < 64 → 16 ≤ s.portRun p → s.b oChFailed p = false →
    Leads (.chPortFail p) s (fun t => t.b oChFailed p = true ∧ (∀ l, l % 64 = p → t.badLine l = true) ∧
      t.b oFaultRecord 63 = true ∧ (s.b oFaultRecord 63 = false → t.f oFaultRecord 55 48 = 0x0B) ∧
      t.f oFaultLog 63 32 = next32 (s.f oFaultLog 63 32) ∧
      RegsBut [oChFailed, oFaultRecord, oFaultBeat, oFaultWhere, oFaultLog] s t))

/-- The grey window's classes (R35, R36, R230, R361): a slice of the scrub over sound lines advances the position, and at the end of the stack counts a
pass and begins again; a class past its period, the scrub's once its pass overruns PERIOD, sets its own bit, and the beat is counted once whatever
classes are late; a telemetry slice passes its rings and changes nothing else. -/
def Obligations.BackgroundSlicesAdvanceTheirRecords : Prop :=
  (∀ (s : State) (n : Nat), Ready s → s.b oScrubCfg 0 = true → 0 < s.f oTierStat 63 47 → LinesGood s → s.io.badFree = [] →
    s.f oScrubStat 47 8 < s.f oTierStat 63 47 * 8192 →
    Leads (.scrubSlice n) s (fun t =>
      t = { s with live := t.live, rings := t.rings, io := t.io, out := t.out, res := { s.res with scrubAt := t.res.scrubAt } } ∧
      RegsBut [oScrubStat] s t ∧
      if s.f oScrubStat 47 8 + n < s.f oTierStat 63 47 * 8192 then
        t.f oScrubStat 47 8 = s.f oScrubStat 47 8 + n ∧ t.f oScrubStat 63 48 = s.f oScrubStat 63 48 ∧ t.res = s.res
      else t.f oScrubStat 47 8 = 0 ∧ t.f oScrubStat 63 48 = min (s.f oScrubStat 63 48 + 1) 65535 ∧ t.res.scrubAt = s.beat)) ∧
  (∀ (s : State) (c : GreyClass), Ready s → (c = .scrub → s.scrubOverrun = true) →
    Leads (.greyStarved c) s (fun t => t.b oGreyStat (greyBit c) = true ∧ RegsBut [oGreyStat] s t ∧
    t.mem = s.mem ∧ (∀ d, d ≠ c → t.b oGreyStat (greyBit d) = s.b oGreyStat (greyBit d)) ∧
    t.f oGreyStat 63 32 = if s.res.starveAt = s.beat + 1 then s.f oGreyStat 63 32 else next32 (s.f oGreyStat 63 32))) ∧
  (∀ s : State, Ready s → s.scrubOverrun = false → exec (.greyStarved .scrub) s = .next s) ∧
  ∀ s : State, Ready s → Leads .telemetrySlice s (fun t => t = { s with rings := t.rings })

/-! The beat -/

/-- A boundary ends the beat (R25, R27, R464): BEAT_NOW and the lifetime count of beats advance, QUIESCE takes the value of CTL, the offset is recorded
(0 at the master), and the beat-sync message of the new beat leaves with this instance's identity. Where no group barrier is released, no command of
SQ runs, no readiness is in flight and no eviction was put off, memory and the tiles in flight stay, and it is the only message. A beat-sync message
of another instance (R27, R29), at one whose readiness for a group APPLY is not in flight. One that makes it take no other master moves neither the
count nor BEAT_SYNC: the sender's latest message is kept with the beat of its receipt, and one of the master shows that the master is there. A
sender that claims the role with a lower INST_ID, where both or neither have heard another instance since their reset, becomes the master here, and
so does the master of one that has heard others at an instance that has not: the count is the message's, MASTER_CHANGED sets, the lock is lost, a
log entry is written. The first master that an instance hears of gives it the count and is no change of master (the model's choice, assumption logs
16 and 17). A master that has not been heard for four beats is replaced by the lowest INST_ID still heard, this one included (R29): MASTER_ID names
it, MASTER and LOCKED are set exactly when it is this instance, MASTER_CHANGED is set, a log entry is made, and the lock's count begins again. -/
def Obligations.BeatsAdvanceAndFollowTheMaster : Prop :=
  ((∀ (s : State) (ns : Int), s.wf = true → 3 ≤ s.pin.phase → s.calm = true → s.beat + 1 < 2 ^ 48 →
    Leads (.beatBoundary ns) s (fun t => t.beat = s.beat + 1 ∧ t.f (oLife 0) 63 0 = min (s.f (oLife 0) 63 0 + 1) (2 ^ 64 - 1) ∧
      t.quiesced = s.b oCtl 0 ∧ t.f oBeatSync 15 0 = (if s.b oBeatCfg 16 then 0 else (BitVec.ofInt 16 ns).toNat) ∧
      t.pin.phase = s.pin.phase ∧ t.staged = s.staged ∧ ∃ m, .beatSync m ∈ t.out.peer ∧ m.src = s.me ∧ m.beat = s.beat + 1)) ∧
  ∀ (s : State) (ns : Int), s.wf = true → 3 ≤ s.pin.phase → s.calm = true → s.barriersDue = [] → s.run .sq = none → s.stageState ≠ 4 →
    (∀ e ∈ s.tier.pages, e.2.held = false) →
    Leads (.beatBoundary ns) s (fun t => t.mem = s.mem ∧ t.jobs = s.jobs ∧ ∃ m, t.out.peer = s.out.peer ++ [.beatSync m])) ∧
  ((∀ (s : State) (m : BeatMsg) (x : Nat), s.wf = true → 3 ≤ s.pin.phase → m.src ≠ s.me → s.stageState ≠ 4 → s.peer.synced = true →
    s.master = some x → (∀ y, m.master = some y → ¬ (y = m.src ∧ y < x ∧ m.heard = true)) →
    Leads (.beatSyncMsg m) s (fun t => t.beat = s.beat ∧ t.reg oBeatSync = s.reg oBeatSync ∧ t.mem = s.mem ∧
      t.peer.adverts = s.peer.adverts.filter (fun a => a.src != m.src) ++ [{ m with beat := s.beat }] ∧
      (m.src = s.f oBeatSync 47 40 → s.b oBeatCfg 16 = false → t.peer.heardAt = s.beat))) ∧
  (∀ (s : State) (m : BeatMsg) (x y : Nat), s.wf = true → 3 ≤ s.pin.phase → m.src ≠ s.me → s.stageState ≠ 4 → y < 256 → y ≠ s.me →
    s.master = some x → m.master = some y → y ≠ x → m.beat < 2 ^ 48 →
    ((y = m.src ∧ y < x ∧ s.peer.synced = m.heard) ∨ (s.peer.synced = false ∧ m.heard = true)) →
    Leads (.beatSyncMsg m) s (fun t => t.f oBeatSync 47 40 = y ∧ t.b oBeatSync 33 = true ∧ t.b oBeatSync 31 = false ∧
      t.b oBeatCfg 16 = false ∧ t.beat = m.beat ∧ t.f oFaultLog 63 32 = next32 (s.f oFaultLog 63 32))) ∧
  ∀ (s : State) (m : BeatMsg) (y : Nat), s.wf = true → 3 ≤ s.pin.phase → m.src ≠ s.me → s.stageState ≠ 4 → s.master = none → m.master = some y →
    y ≠ s.me → y < 256 → m.beat < 2 ^ 48 →
    Leads (.beatSyncMsg m) s (fun t => t.f oBeatSync 47 40 = y ∧ t.b oBeatSync 33 = s.b oBeatSync 33 ∧ t.beat = m.beat ∧
      t.f oFaultLog 63 32 = s.f oFaultLog 63 32)) ∧
  (∀ s : State, s.wf = true → 3 ≤ s.pin.phase → s.b oBeatCfg 16 = false → s.peer.heardAt + 4 ≤ s.beat →
    let elected := ((s.peer.adverts.filter (fun m => s.fresh m && m.src != s.f oBeatSync 47 40)).map (·.src)).foldl min s.me
    Leads .masterLost s (fun t => t.f oBeatSync 47 40 = elected ∧ t.b oBeatSync 33 = true ∧ t.b oBeatCfg 16 = decide (elected = s.me) ∧
      t.b oBeatSync 31 = decide (elected = s.me) ∧ t.f oFaultLog 63 32 = next32 (s.f oFaultLog 63 32) ∧
      t.peer.heardAt = s.beat ∧ t.peer.badRun = 0 ∧ t.peer.goodRun = 0 ∧ t.beat = s.beat))

/-- An offset beyond 50 ns at a boundary counts toward the bad boundaries in a row and one within 50 ns toward the good ones, each beginning the other
again; four bad ones in a row set SYNC_FAULT, clear LOCKED and capture a detected fault of class 0x11, four good ones set LOCKED again (R28). -/
def Obligations.SyncIsLostAndRegained : Prop :=
  (∀ (s : State) (ns : Int), s.wf = true → 3 ≤ s.pin.phase → s.calm = true → s.b oBeatCfg 16 = false →
    Leads (.beatBoundary ns) s (fun t =>
      t.peer.badRun = (if 50 < ns.natAbs then s.peer.badRun + 1 else 0) ∧ t.peer.goodRun = (if 50 < ns.natAbs then 0 else s.peer.goodRun + 1))) ∧
  (∀ s : State, s.wf = true → 3 ≤ s.pin.phase → 4 ≤ s.peer.badRun → s.b oBeatCfg 16 = false →
    Leads .syncFault s (fun t => t.b oBeatSync 32 = true ∧ t.b oBeatSync 31 = false ∧ t.b oFaultRecord 63 = true ∧
      (s.b oFaultRecord 63 = false → t.f oFaultRecord 55 48 = 0x11) ∧
      RegsBut [oBeatSync, oFaultRecord, oFaultBeat, oFaultWhere, oFaultLog] s t)) ∧
  ∀ s : State, s.wf = true → 3 ≤ s.pin.phase → 4 ≤ s.peer.goodRun → s.b oBeatCfg 16 = false →
    exec .beatRelock s = .next (s.setB oBeatSync 31 true)

/-! Commit -/

/-- The coordinator keeps a vote that does not complete the set; the last YES decides COMMIT with F the latest V plus T_sync, journals and announces it,
and follows it (R74, R75, R76); another member passes a vote up the tree. A vote missing VOTE_TIMEOUT beats after the first ends the collection: the
coordinator journals and announces the loss of a peer (R75). A decision received (R75, R76, R78): passed down the tree and journaled; COMMIT arms
the flip for its beat F; HELD completes the running COMMIT with 0x08 in the state HELD, ABORT with 0x2F, or with its own reason on the member that
voted NO, in the state IDLE; the result stands in COMMIT_STATE. -/
def Obligations.VotesAreCollectedDecidedAndFollowed : Prop :=
  ((∀ (s : State) (src step v : Nat) (vote : Vote) (held reason : Nat), Ready s → s.isCoord = true → s.commit.votes ≠ [] →
    s.commit.voteStep = step → s.commit.votes.any (·.src == src) = false → s.commit.votes.length + 1 < s.groupSize →
    exec (.commitVote src step v vote held reason) s = .next { s with commit := { s.commit with
      votes := s.commit.votes ++ [⟨src, v, vote, held, reason⟩] } }) ∧
  (∀ (s : State) (src step v : Nat) (held reason : Nat) (r : Run), Ready s → s.isCoord = true → s.commit.votes ≠ [] →
    s.commit.voteStep = step → s.commit.votes.any (·.src == src) = false → s.commit.votes.length + 1 = s.groupSize →
    s.members.all (fun m => s.commit.votes.any (·.src == m) || m == src) = true → s.commit.votes.all (·.vote == .yes) = true →
    s.commitRun = some r → r.step = step → s.commit.decided = none → s.commitPhase = 2 →
    let f := max ((s.commit.votes.map (·.v)).foldl max 0) v + tSync s.groupSize
    s.beat < f → f < 2 ^ 48 →
    Leads (.commitVote src step v .yes held reason) s (fun t => t.commit.decided = some (.commit, f, 0, 0) ∧ t.commit.flipAt = f ∧
      t.commit.votes = [] ∧ t.f oCommitPend 47 0 = f ∧ t.commitPhase = 3 ∧ t.commit.journal.head? = some ⟨step, .commit, f⟩ ∧
      t.out.peer = (if s.normKids.isEmpty then s.out.peer else s.out.peer ++ [.decision step .commit f 0 0]) ∧ t.mem = s.mem ∧
      RegsBut [oCommitPend, oCommitState] s t)) ∧
  ∀ (s : State) (src step v : Nat) (vote : Vote) (held reason p : Nat), Ready s → s.isCoord = false → s.normParent = some p →
    exec (.commitVote src step v vote held reason) s = .next (s.send (.vote p src step v vote held reason))) ∧
  (∀ s : State, Ready s → s.isCoord = true → s.commit.votes ≠ [] → s.commit.firstVote + s.voteTimeout ≤ s.beat →
    Leads .commitVoteTimeout s (fun t => t.commit.votes = [] ∧
      t.commit.journal.head? = some ⟨s.commit.voteStep, .abortPeerLost, s.beat⟩ ∧
      (s.normKids.isEmpty = false → PeerMsg.decision s.commit.voteStep .abortPeerLost s.beat s.silent 0 ∈ t.out.peer))) ∧
  ((∀ (s : State) (step f inst info : Nat) (r : Run), Ready s → s.commitRun = some r → r.step = step → s.commit.decided = none →
    s.commitPhase = 2 → s.beat < f → f < 2 ^ 48 →
    Leads (.commitDecision step .commit f inst info) s (fun t => t.commit.decided = some (.commit, f, inst, info) ∧ t.commit.flipAt = f ∧
      t.commit.lateFlip = false ∧ t.f oCommitPend 47 0 = f ∧ t.commitPhase = 3 ∧ t.commit.journal.head? = some ⟨step, .commit, f⟩ ∧
      t.run .uq = s.run .uq ∧ t.mem = s.mem ∧ RegsBut [oCommitPend, oCommitState] s t)) ∧
  ∀ (s : State) (step f inst info : Nat) (d : Decision) (r : Run), Ready s → Last s .uq r → s.commitRun = some r → r.step = step →
    s.commit.decided = none → s.commitPhase = 2 → (d = .held ∨ d = .abortNo) →
    Leads (.commitDecision step d f inst info) s (fun t => Done .uq r.seq t ∧ t.commitPhase = (if d = .held then 5 else 0) ∧
      t.f oCommitState 23 16 = (if d = .held then 0x08 else (if inst = s.me then info else r.info.headD 0x2F) % 256) ∧ t.commit.journal.head? = some ⟨step, d, f⟩ ∧ t.stepNow = s.stepNow))

/-- The flip (R58, R59, R76, R78): over sound lines the role of every descriptor of the commit set that is not excluded is inverted and of no other,
COMMIT_STATE takes the step, IDLE and the count of exclusions, COMMIT_BEAT the beat, the step in progress is empty, and the COMMIT has completed. -/
def Obligations.TheFlipInvertsTheCommitSet : Prop :=
  ∀ (s : State) (r : Run) (f i k : Nat), s.wf = true → s.pin.phase = 6 → s.flipDue = true → s.applyDue = false → s.groupDue = false →
    Last s .uq r → s.commit.decided = some (.commit, f, i, k) → LinesGood s → s.step.set.Nodup → (∀ d ∈ s.step.set, d < 65536) → r.step < 2 ^ 32 →
    Leads .commitFlip s (fun t => Done .uq r.seq t ∧ t.stepNow = r.step ∧ t.commitPhase = 0 ∧ t.f oCommitBeat 47 0 = s.beat ∧
      t.reg oCommitPend = 0#64 ∧ t.step = StepSt.empty ∧ t.commit.decided = none ∧
      t.f oCommitState 15 0 = min (s.step.set.filter s.step.exclude.contains).length 65535 ∧
      ∀ d, d < 65536 → (t.desc d).role =
        if d ∈ s.step.set ∧ d ∉ s.step.exclude then 1 - (s.desc d).role else (s.desc d).role)

/-- A YES vote without a decision T_sync beats on leaves the member IN_DOUBT, and it asks for the decision; VOTE_TIMEOUT beats later the COMMIT
completes FAULT_PEER_LOST and the doubt stays (R77). A query is answered from the journal where it holds the step; an answer to a member in doubt is
its decision, and a COMMIT then flips at the next boundary (R77). -/
def Obligations.DoubtIsAnsweredFromTheJournal : Prop :=
  ((∀ (s : State) (r : Run) (v : Nat), Ready s → s.commitRun = some r → r.phase = 2 → s.commitPhase = 2 → s.commit.decided = none →
    s.isCoord = false → s.commit.lastVote = some v → v + tSync s.groupSize ≤ s.beat →
    exec .commitInDoubt s = .next ((({ s with commit := { s.commit with doubtFrom := s.beat } } : State).setF oCommitState 31 28 4).send
      (.query r.step))) ∧
  ∀ (s : State) (r : Run), Ready s → LinesGood s → Last s .uq r → s.commitRun = some r → s.commitPhase = 4 → s.commit.decided = none →
    s.commit.doubtFrom + s.voteTimeout ≤ s.beat →
    Leads .inDoubtTimeout s (fun t => Done .uq r.seq t ∧ t.commitPhase = 4 ∧ t.f oCommitState 23 16 = 0x22 ∧ t.stepNow = s.stepNow ∧
      t.b oFaultRecord 63 = true ∧ t.f oFaultLog 63 32 = next32 (s.f oFaultLog 63 32))) ∧
  ((∀ (s : State) (src step : Nat) (j : Journal), Ready s → s.commit.journal.find? (·.step == step) = some j →
    exec (.journalQuery src step) s = .next (s.send (.answer src step j.decision j.f))) ∧
  (∀ (s : State) (src step : Nat), Ready s → s.commit.journal.find? (·.step == step) = none → exec (.journalQuery src step) s = .next s) ∧
  ∀ (s : State) (src step f : Nat) (r : Run), Ready s → s.commitRun = some r → r.step = step → s.commitPhase = 4 → s.commit.decided = none →
    f < 2 ^ 48 →
    Leads (.journalAnswer src step .commit f) s (fun t => t.commit.decided = some (.commit, f, src, 0) ∧ t.commit.lateFlip = true ∧
      t.commit.flipAt = s.beat + 1 ∧ t.f oCommitPend 47 0 = f ∧ t.commitPhase = 3 ∧ t.mem = s.mem ∧ RegsBut [oCommitPend, oCommitState] s t))

/-! The norm reduction -/

/-- The partial of a child is kept until the member's own and every child's are there, in the place of an earlier one of the same child and step (R274);
a partial of an instance that is no child changes nothing. With the last one a member below the root sends the sum up. The total that comes down is
recorded for the step: NORM_STAT DONE, NORM_VAL the total as K32 with what the encoding shows in NUM_STAT (R107), NORM_KAPPA the clip factor, and it
is passed on to the children (R274, R275, R278). Without it, VOTE_TIMEOUT beats after the partial went, the reduction is given up with
FAULT_PEER_LOST recorded (R276). -/
def Obligations.PartialsAreSummedAndTheTotalReturns : Prop :=
  ((∀ (s : State) (src step : Nat) (x : KX), Ready s → s.normKids.contains src = true → s.grad.norm.own = none →
    exec (.reducePartial src step x) s = .next { s with grad := { s.grad with norm := { s.grad.norm with
      partials := s.grad.norm.partials.filter (fun p => !(p.src = src && p.step = step)) ++ [⟨src, step, x⟩] } } }) ∧
  (∀ (s : State) (src step : Nat) (x : KX), Ready s → s.normKids.contains src = false →
    exec (.reducePartial src step x) s = .next s) ∧
  ∀ (s : State) (src step p : Nat) (x own : KX), Ready s → s.normKids = [src] → s.grad.norm.partials = [] → s.grad.norm.own = some (step, own) →
    s.normParent = some p →
    Leads (.reducePartial src step x) s (fun t => t.out.peer = s.out.peer ++ [.part p step (kxAdd own x).1] ∧ t.grad.norm.own = none ∧
      t.b oNumStat 4 = (s.b oNumStat 4 || (kxAdd own x).2) ∧ RegsBut [oNumStat] s t ∧ t.mem = s.mem)) ∧
  ((∀ (s : State) (step : Nat) (total kappa : KX), Ready s → s.normPlace ≠ 0 → s.f oNormStat 63 32 = step →
    (s.f oNormStat 31 28 = 2 ∨ s.f oNormStat 31 28 = 4) →
    Leads (.reduceTotal step total kappa) s (fun t => t.f oNormStat 31 28 = 3 ∧ t.f oNormVal 63 32 = (s.encK total).2 % 2 ^ 32 ∧ t.reg oNumStat = (s.encK total).1.reg oNumStat ∧
      t.f oNormKappa 33 0 = kappa.toNat ∧ t.kappa step = some kappa ∧ t.mem = s.mem ∧ RegsBut [oNormStat, oNormVal, oNormKappa, oNumStat] s t ∧
      t.out.peer = (if s.normKids.isEmpty then s.out.peer else s.out.peer ++ [.total step total kappa]))) ∧
  ∀ s : State, Ready s → s.f oNormStat 31 28 = 2 → s.grad.norm.sentAt + s.voteTimeout ≤ s.beat →
    Leads .normTimeout s (fun t => t.f oNormStat 31 28 = 4 ∧ t.grad.norm.timedOut.head? = some (s.f oNormStat 63 32) ∧
      t.b oFaultRecord 63 = true ∧ t.f oFaultLog 63 32 = next32 (s.f oFaultLog 63 32) ∧
      (s.b oFaultRecord 63 = false → t.f oFaultRecord 55 48 = 0x09 ∧ t.f oFaultRecord 47 40 = 0x22)))

/-! Rounds and multicast -/

/-- A round-open (R299) while the build buffer is not the serving one and no local command of another round runs on it: one of the round that the buffer
takes joins it, any other begins anew, and the sender gets an acknowledgement; otherwise it gets a refusal, and nothing changes. A receiver whose
lag exceeds LAG_LIMIT, one whose link has failed, or one that refused the round-open, is detached (R294, R299, R302): its holds on the send ring
end, it gets a notice, its catch-up is queued, and MC_STAT and MC_DETACH record it. Shown where the command that runs has nothing left to issue or
send. -/
def Obligations.RoundsOpenAndDetachWhoLags : Prop :=
  ((∀ (s : State) (src id step : Nat), Ready s → s.cyanSize ≠ 0 → s.cyanBuild ≠ s.serving → s.emitRun = none →
    id < 65536 → step < 2 ^ 32 → s.holdsRound s.cyanBuild id step = false →
    Leads (.roundOpen src id step) s (fun t => t.cyanState s.cyanBuild = 1 ∧ t.f (oCyan s.cyanBuild) 31 16 = id ∧
      t.f (oCyan s.cyanBuild) 63 32 = step ∧ t.f (oCyan s.cyanBuild) 7 0 = 0 ∧ t.serving = s.serving ∧
      (t.cyanBuf s.cyanBuild).srcs = expectedFrom s.liveMap s.me ∧ t.out.peer = s.out.peer ++ [.slotAck src openEntry 0] ∧ t.mem = s.mem ∧
      RegsBut [oCyan s.cyanBuild] s t)) ∧
  (∀ (s : State) (src id step : Nat), Ready s → s.cyanSize ≠ 0 → s.cyanBuild ≠ s.serving →
    (s.ownRound s.cyanBuild = some (id, step) ∨ (s.ownRound s.cyanBuild = none ∧ s.holdsRound s.cyanBuild id step = true)) →
    exec (.roundOpen src id step) s = .next (s.send (.slotAck src openEntry 0))) ∧
  ∀ (s : State) (src id step : Nat), Ready s →
    (s.cyanSize = 0 ∨ s.cyanBuild = s.serving ∨ (∃ o, s.ownRound s.cyanBuild = some o ∧ o ≠ (id, step))) →
    exec (.roundOpen src id step) s = .next (s.send (.roundRefused src))) ∧
  (∀ (s : State) (r : Run) (x : Receiver) (b : Bool) (step : Nat) (bs : List (Nat × Nat)) (c : Instr), Ready s → s.run .sq = some r →
    (r.opc = 0x40 ∨ r.opc = 0x41) → s.cyan.receivers.find? (fun y => y.inst = x.inst && y.attached) = some x → s.cyan.bound = some (step, b, bs) →
    s.issueStopped = true → r.rows = [] → (s.jobsOf .sq r.seq).length ≠ 0 → s.queues.length = 4 → x.inst < 256 →
    ((c = .mcDetach x.inst ∧ (s.f oMcCfg 3 0 < s.lagOf x ∨ s.linkDown x.inst = true)) ∨ c = .roundOpenRefused x.inst) →
    Leads c s (fun t => t.f oMcStat 63 48 = min (s.f oMcStat 63 48 + 1) 65535 ∧ t.f oMcStat 15 0 = min (s.f oMcStat 15 0 + 1) 65535 ∧
      t.f oMcDetach 63 56 = x.inst ∧ t.f oMcDetach 47 0 = s.beat ∧ .detach x.inst ∈ t.out.peer ∧
      t.cyan.catchups.length = s.cyan.catchups.length + 1 ∧ (∀ e ∈ t.cyan.ring, x.inst ∉ e.waiting) ∧
      (∀ y ∈ t.cyan.receivers, y.inst = x.inst → y.attached = false)))

/-- A slot of the round that a buffer holds, from the entry's source and for this member, is written at the entry's place in the buffer and
acknowledged; its bytes count toward what the source owes once (R283, R301); a slot of no round that a buffer holds is discarded (R299). Stated for
a buffer outside the tiers. While no RESHARD or EMIT_CYAN runs, an acknowledgement that the send ring waits for, or that no catch-up does, takes the
receiver off the slot's entry, and the entries of the send ring that nobody holds any more leave it from the front (R301, R302). -/
def Obligations.SlotsAreWrittenAndAcknowledged : Prop :=
  ((∀ (s : State) (b : Bool) (src id step entry ofs : Nat) (data : List Byte), Ready s → LinesGood s →
    [false, true].find? (fun b => s.holdsRound b id step) = some b → entry < mapCount s.liveMap →
    (mapEntry s.liveMap entry).src = src → (mapSet s.liveMap (mapEntry s.liveMap entry).dset).contains s.me = true →
    ofs + data.length ≤ (mapEntry s.liveMap entry).size →
    s.cyanBase b + (mapEntry s.liveMap entry).dofs + ofs + data.length ≤ 0x10000000000 →
    Leads (.mcSlot src id step entry ofs data) s (fun t =>
      t.out.peer = s.out.peer ++ [.slotAck src entry ofs] ∧ (t.cyanBuf b).lastData = s.beat ∧ RegsBut [oCyan b] s t ∧
      ∀ a, t.byte a = if s.cyanBase b + (mapEntry s.liveMap entry).dofs + ofs ≤ a ∧
          a < s.cyanBase b + (mapEntry s.liveMap entry).dofs + ofs + data.length then
        nth 0#8 data (a - (s.cyanBase b + (mapEntry s.liveMap entry).dofs + ofs)) else s.byte a)) ∧
  ∀ (s : State) (src id step entry ofs : Nat) (data : List Byte), Ready s → s.holdsRound false id step = false → s.holdsRound true id step = false →
    exec (.mcSlot src id step entry ofs data) s = .next s) ∧
  (∀ (s : State) (src entry ofs : Nat), Ready s → s.emitRun = none →
    (s.ringAwaits src entry ofs = true ∨ s.catchupAwaits src entry ofs = false) →
    Leads (.slotAck src entry ofs) s (fun t => t.live = s.live ∧ t.mem = s.mem ∧ t.out = s.out ∧
      t.cyan.ring = freeSent (s.cyan.ring.map (fun e =>
        if e.entry = entry ∧ e.ofs = ofs then { e with waiting := e.waiting.filter (· != src) } else e))))

/-- The first catch-up starts once the command that detached its receiver has completed: a receiver that never took the round-open gets it first (R303).
One that gets no acknowledgement for VOTE_TIMEOUT beats is abandoned: counted, noticed, gone. What a detached receiver does (R283, R284, R303,
R304): a notice of a source of the round that a buffer holds is counted in LAGGING and, where its bytes are missing and the buffer's own commands
are done, makes the buffer LAGGING; an abandon notice, or VOTE_TIMEOUT beats without data while LAGGING, makes it STALE. -/
def Obligations.CatchupsRunAndReceiversGoStale : Prop :=
  ((∀ (s : State) (c : Catchup) (rest : List Catchup), Ready s → s.cyan.catchups = c :: rest → c.running = false → c.opened = false →
    c.seq ≠ 2 ^ 32 → (s.run .sq).map (·.seq) ≠ some c.seq →
    exec .catchupStart s = .next (({ s with cyan := { s.cyan with catchups := { c with running := true, acked := s.beat } :: rest } } : State).send
      (.roundOpen c.inst (mapId c.map) c.step))) ∧
  ∀ (s : State) (c : Catchup) (rest : List Catchup), Ready s → s.cyan.catchups = c :: rest → c.running = true → c.acked + s.voteTimeout ≤ s.beat →
    Leads .catchupAbandon s (fun t => t.cyan.catchups = rest ∧ t.f oMcStat 31 16 = min (s.f oMcStat 31 16 + 1) 65535 ∧
      t.f oMcStat 15 0 = s.f oMcStat 15 0 - 1 ∧ t.out.peer = s.out.peer ++ [.abandon c.inst] ∧ RegsBut [oMcStat] s t ∧ t.mem = s.mem)) ∧
  ((∀ (s : State) (src : Nat) (b : Bool), Ready s → s.roundOf src = some b → (s.cyanBuf b).srcs.any (fun r => r.src = src && r.detached) = false →
    (s.cyanBuf b).localDone = true → (s.cyanBuf b).srcs.any (fun r => r.src = src && r.received < r.expected) = true →
    Leads (.detachNotice src) s (fun t => t.f (oCyan b) 7 0 = min (s.f (oCyan b) 7 0 + 1) 255 ∧ t.cyanState b = 3 ∧
      (∀ r ∈ (t.cyanBuf b).srcs, r.src = src → r.detached = true) ∧ RegsBut [oCyan b] s t ∧ t.mem = s.mem)) ∧
  (∀ (s : State) (src : Nat) (b : Bool), Ready s → s.roundOf src = some b → exec (.abandonNotice src) s = .next (s.setF (oCyan b) 15 12 4)) ∧
  ∀ (s : State) (b : Bool), Ready s → s.cyanState b = 3 → s.cyanState (!b) ≠ 3 → (s.cyanBuf b).lastData + s.voteTimeout ≤ s.beat →
    exec .laggingTimeout s = .next (s.setF (oCyan b) 15 12 4))

/-! Partners -/

/-- Data of a partner's open snapshot are kept in the half of the mirror store that holds it: every record and every tile with its bytes and digest
(R371, R373); a seal message seals it (R374); a tier page is kept in its slot (R377). Registers and memory stay; without MIRROR_GIB nothing is kept.
What a partner asks of the mirror store is answered from it (R347, R378, R381): a tier page when the copy has the digest asked for, the digest
tables of the sealed snapshot or none, a tile or none. Answering changes nothing here. -/
def Obligations.TheMirrorStoreServesThePartner : Prop :=
  ((∀ (s : State) (src id step h : Nat) (x : Snap) (records : List SnapRecord), Ready s → s.mirrors = true →
    s.halfOf false false id = some (h, x) → h < s.res.mirHalves.length →
    exec (.mirrorData src id step [] records) s = .next (s.setHalf false h (some { x with
      records := x.records.filter (fun e => !records.any (·.desc == e.desc)) ++ records }))) ∧
  (∀ (s : State) (src id step h : Nat) (x : Snap) (tile : SnapTile), Ready s → s.mirrors = true →
    s.halfOf false false id = some (h, x) → h < s.res.mirHalves.length →
    Leads (.mirrorData src id step [tile] []) s (fun t => ∃ y, nth none t.res.mirHalves h = some y ∧ y.id = id ∧ y.sealed = false ∧
      (⟨tile.id, tile.bytes, tile.digest, x.len⟩ : StoreTile) ∈ y.tiles ∧ y.len = x.len + tile.bytes.length ∧
      (∀ e ∈ x.tiles, e.id ≠ tile.id → e ∈ y.tiles))) ∧
  (∀ (s : State) (src id h : Nat) (x : Snap), Ready s → s.mirrors = true → s.halfOf false false id = some (h, x) → h < s.res.mirHalves.length →
    Leads (.sealMsg src id) s (fun t => ∃ y, nth none t.res.mirHalves h = some y ∧ y.id = id ∧ y.sealed = true ∧ y.tiles = x.tiles ∧
      y.records = x.records)) ∧
  (∀ (s : State) (src page : Nat) (digest : BitVec 32) (data : List Byte), Ready s → s.mirrors = true → s.channels = 0 →
    exec (.tierMirrorPage src page digest data) s = .next { s with tier := { s.tier with
      mirPages := fset (fun _ => []) s.tier.mirPages page data } }) ∧
  ∀ (s : State) (src id step : Nat) (ts : List SnapTile) (rs : List SnapRecord), Ready s → s.mirrors = false →
    exec (.mirrorData src id step ts rs) s = .next s ∧ exec (.sealMsg src id) s = .next s) ∧
  ((∀ (s : State) (src page : Nat) (digest : BitVec 32), Ready s →
    exec (.pageFetchRequest src page digest) s = .next (s.send (.pageData src page
      (let bs := fget (fun _ => []) s.tier.mirPages page; if bs ≠ [] ∧ crc32c bs = digest then some bs else none)))) ∧
  (∀ (s : State) (src id first last : Nat), Ready s → id ≠ 0 →
    exec (.digestRequest src id first last) s = .next (s.send (match s.halfOf false true id with
      | some (_, x) => .digests src x.id x.step (x.tablesOf first last)
      | none => .digests src id 0 []))) ∧
  (∀ (s : State) (src first last : Nat), Ready s → s.newestSeal false = none →
    exec (.digestRequest src 0 first last) s = .next (s.send (.digests src 0 0 []))) ∧
  (∀ (s : State) (src id h : Nat) (x : Snap) (t : TileId), Ready s → s.halfOf false true id = some (h, x) →
    exec (.mirrorTileRequest src id t) s = .next (s.send (.tileData src id t ((x.tiles.find? (·.id == t)).map (·.bytes))))) ∧
  ∀ (s : State) (src id : Nat) (t : TileId), Ready s → s.halfOf false true id = none → s.halfOf false false id = none →
    exec (.mirrorTileRequest src id t) s = .next (s.send (.tileData src id t none)))

/-- A running RESTORE FROM_PARTNER takes the snapshot that the answer names when no record contradicts it, and is refused when there is none (R380,
R381); it waits as long as the partner is heard, and VOTE_TIMEOUT beats after its request, with the partner heard no longer, it ends FAULT_CHECKWORD
(the model's choice, assumption log 27). A local one takes the tables that come, and goes on unconfirmed when none come within VOTE_TIMEOUT beats
(R381). With the partner's tables there and local ones to compare, an unconfirmed restore is confirmed when every digest is equal, and otherwise the
first difference is logged as a masked fault of class 0x16 and MISMATCH sets (R384); either way the comparison is over. Where one of the two sides
has no table, nothing is compared and the restore stays unconfirmed. -/
def Obligations.RestoresWaitForThePartner : Prop :=
  ((∀ (s : State) (r : Run) (x : RestoreSt) (id step : Nat) (ts : List DigestTable), Ready s → Last s .sq r → r.opc = 0x43 → r.fromPartner = true →
    s.res.restore = some x → x.tables = none → x.waited = false → ts ≠ [] → s.restBad r (ts.map (·.record)) = false →
    exec (.digestAnswer x.src id step ts) s = .next (({ s with res := { s.res with
      restore := some { x with tables := some ts, snapId := id } } } : State).setRun .sq (some { r with step := step }))) ∧
  (∀ (s : State) (r : Run) (x : RestoreSt) (id step : Nat) (ts : List DigestTable), Ready s → Last s .sq r → r.opc = 0x43 → r.fromPartner = true →
    s.res.restore = some x → x.tables = none → x.waited = false → (ts = [] ∨ s.restBad r (ts.map (·.record)) = true) →
    Leads (.digestAnswer x.src id step ts) s (fun t => Done .sq r.seq t ∧ t.res.restore = none)) ∧
  (∀ (s : State) (r : Run) (x : RestoreSt) (id step : Nat) (ts : List DigestTable), Ready s → s.run .sq = some r → r.opc = 0x43 →
    r.fromPartner = false → s.res.restore = some x → x.tables = none → x.waited = false →
    exec (.digestAnswer x.src id step ts) s = .next { s with res := { s.res with
      restore := some (if ts = [] then { x with waited := true } else { x with tables := some ts }) } }) ∧
  (∀ (s : State) (r : Run) (x : RestoreSt), Ready s → Last s .sq r → r.opc = 0x43 → r.fromPartner = true → s.res.restore = some x →
    x.tables = none → x.waited = false → x.asked + s.voteTimeout ≤ s.beat →
    (s.hears x.src = true → exec .restoreTableTimeout s = .next s) ∧
    (s.hears x.src = false → Leads .restoreTableTimeout s (fun t => Done .sq r.seq t ∧ t.res.restore = none))) ∧
  ∀ (s : State) (r : Run) (x : RestoreSt), Ready s → s.run .sq = some r → r.opc = 0x43 → r.fromPartner = false → s.res.restore = some x →
    x.tables = none → x.waited = false → x.asked + s.voteTimeout ≤ s.beat →
    exec .restoreTableTimeout s = .next { s with res := { s.res with restore := some { x with waited := true } } }) ∧
  (∀ (s : State) (x : RestoreSt) (ts : List DigestTable), Ready s → s.run .sq = none → s.res.restore = some x → x.tables = some ts →
    s.b oRestoreStat 31 = true →
    let digest := fun (l : List DigestTable) (d i : Nat) => (l.find? (·.record.desc == d)).bind (fun e => nth none e.digests i)
    ((ts = [] ∨ s.halfOf true true x.snapId = none) → exec .restoreConfirm s = .next s) ∧
    ∀ (h : Nat) (y : Snap), s.halfOf true true x.snapId = some (h, y) → y.tablesOf x.first x.last ≠ [] → ts ≠ [] →
      ((∀ d i, digest (y.tablesOf x.first x.last) d i = digest ts d i) →
        exec .restoreConfirm s = .next (({ s with res := { s.res with restore := none } } : State).setB oRestoreStat 31 false)) ∧
      ((∃ d i, digest (y.tablesOf x.first x.last) d i ≠ digest ts d i) →
        Leads .restoreConfirm s (fun t => t.b oRestoreStat 30 = true ∧ t.b oRestoreStat 31 = true ∧ t.res.restore = none ∧
          t.f oFaultLog 63 32 = next32 (s.f oFaultLog 63 32))))

/-- The partner's loss of a snapshot's mirror marks it unmirrored, and the newest sealed one in SNAP_OPEN too (R376, R378); a lost tile of the own store
that comes back with its digest is kept (without flash there is nothing to program again), and one that the partner has not, marks its descriptor
INCOMPLETE. -/
def Obligations.LostSnapshotTilesAreRepaired : Prop :=
  (∀ (s : State) (src id : Nat), Ready s → s.partner = some src → id ≠ 0 → id < 2 ^ 32 →
    Leads (.mirrorLossReport src id) s (fun t => (∀ x, some x ∈ t.res.halves → x.id = id → x.unmirrored = true) ∧
      (id = s.f oSnapStat 31 0 → t.b oSnapOpen 3 = true) ∧ (s.b oSnapOpen 4 = true → id = s.f oSnapPrev 31 0 → t.b oSnapOpen 6 = true) ∧
      RegsBut [oSnapOpen] s t ∧ t.mem = s.mem)) ∧
  (∀ (s : State) (src id h : Nat) (x : Snap) (e : StoreTile), Ready s → s.run .sq = none → s.partner = some src → s.channels = 0 →
    s.halfOf true true id = some (h, x) → x.tiles.find? (·.id == e.id) = some e → crc32c e.bytes = e.digest →
    exec (.mirrorTileAnswer src id e.id (some e.bytes)) s = .next s) ∧
  ∀ (s : State) (src id h : Nat) (x : Snap) (e : StoreTile), Ready s → s.run .sq = none → s.partner = some src → h < s.res.halves.length →
    s.halfOf true true id = some (h, x) → x.tiles.find? (·.id == e.id) = some e →
    Leads (.mirrorTileAnswer src id e.id none) s (fun t => t.b oSnapOpen 1 = true ∧
      ∃ y, nth none t.res.halves h = some y ∧ (∀ r ∈ y.records, r.desc = e.id.desc → r.incomplete = true))

/-! The peer link -/

/-- A frame with every field in its range, sent on the lanes of a port behind markers that carry the BIP-8 of the frame before, is read on a port of the
same lanes as what it was, and as good (R405, R406): every field, through scrambling, lane order, padding and CRC. -/
def Obligations.FramesReadBackAsSent : Prop :=
  ∀ (x : PortSt) (f : Frame) (count : Nat), 4 ≤ x.lanes.length → x.lanes.length ≤ 8 → x.lanes.Nodup → (∀ l ∈ x.lanes, l < 9) →
    (∀ e ∈ x.bips, e.2 < 256) → (x.bips.map (·.1)).Nodup → count < 2 ^ 48 → f.cls < 256 → f.src < 256 → f.seq < 2 ^ 32 →
    f.dest.Pairwise (· < ·) → (∀ d ∈ f.dest, d < 256) → f.ackClass < 256 → f.ackSeq < 2 ^ 32 → f.swap < 256 → f.payload.length ≤ 752 * x.lanes.length →
    f.nak.all (fun e => e.1 < 255 && e.2 < 2 ^ 32) = true →
    f.refuse.all (fun e => e.1 < 2 ^ 32 && 0 < e.2 && e.2 < 256) = true →
    let bip := fun (l : Nat) => ((x.bips.find? (·.1 == l)).map (·.2)).getD 0
    let rx := x.readFrame ((List.zip x.lanes (frameLanes f x.lanes)).map (fun (l, ws) => marker l (bip l) count :: ws))
    rx.f = f ∧ rx.good = true ∧ rx.bips.map (·.1) = x.lanes

/-- A good frame with the sequence number that its class expects, for this instance alone, is delivered, advances what the class expects, frees what it
acknowledges, and is acknowledged by the next frame that leaves the port when no other class is ahead of it (R407 to R409). One ahead of the
sequence is answered with a NAK that names what is expected, one behind it is dropped (R408). A NAK has the frames kept from there on sent again,
and counted (R408). One that fails its checks is counted and answered with a NAK; one of a class beyond 5 is dropped with REFUSED_AUTHORITY and
counted (R407). Shown for frames that show no lane to have failed and ask for no lane swap. A port that PL_CFG names enables its lanes and comes up
with the locked ones, the lowest eight to carry traffic and the ninth to spare; the class-0 exchange leaves over them (R404, R410, R412). Fewer than
four leave it down. A failed lane's traffic moves to the spare, which takes its place in the order of the bytes; the swap is counted, logged as a
masked fault, and asked of the sender (R411). Without a spare the port goes on with the lanes that remain, down to four, and the sender is told of
the lane in the same way (log entry 25); below four it goes down as for a lost peer. In calibration an active lane's traffic moves to the spare
first and the lane becomes the spare (R364). -/
def Obligations.PeerPortsKeepOrderAndLanes : Prop :=
  (∀ (s : State) (p : Nat) (ws : List (List (BitVec 128))), s.wf = true → 2 ≤ s.pin.phase → p < 8 → s.peer.ports.length = 8 → s.portUp p = true →
    let x := s.port p
    let rx := x.readFrame ws
    let f := rx.f
    let want := nth 0 x.expect f.cls
    let s' := s.setPort p (x.noteLanes rx)
    let left := x.keep.filter (fun k => !(k.frame.cls = f.ackClass && sub32 f.ackSeq k.frame.seq < 2 ^ 31))
    (x.noteLanes rx).badLanes = [] →
    (rx.good = true → 1 ≤ f.cls → f.cls ≤ 5 → x.expect.length = 6 → f.seq = want → f.nak = none → f.swap = 0xFF → f.dest = [s.me] →
      Leads (.peerFrame p ws) s (fun t => t.out.inbox = s.out.inbox ++ [(p, f)] ∧ nth 0 (t.port p).expect f.cls = (f.seq + 1) % 2 ^ 32 ∧
        (t.port p).bips = rx.bips ∧
        (x.owe = [] → ∃ tx ∈ t.out.link.getLast?, tx.port = p ∧ tx.frame.ackClass = f.cls ∧ tx.frame.ackSeq = f.seq) ∧
        (s.run .sq = none → t.live = s.live ∧ t.mem = s.mem ∧ (t.port p).keep = left))) ∧
    (rx.good = true → 1 ≤ f.cls → f.cls ≤ 5 → f.seq ≠ want → f.nak = none → f.swap = 0xFF →
      Leads (.peerFrame p ws) s (fun t => t.out.inbox = s.out.inbox ∧ (t.port p).expect = x.expect ∧
        (sub32 f.seq want < 2 ^ 31 → ∃ tx ∈ t.out.link.getLast?, tx.port = p ∧ tx.frame.cls = 0 ∧ tx.frame.nak = some (f.cls, want)) ∧
        (2 ^ 31 ≤ sub32 f.seq want → s.run .sq = none → t.out = s.out ∧ t.live = s.live ∧ t.mem = s.mem))) ∧
    (∀ c n, rx.good = true → f.cls = 0 → f.nak = some (c, n) → f.swap = 0xFF → s.run .sq = none →
      Leads (.peerFrame p ws) s (fun t =>
        let again := left.filter (fun k => k.frame.cls = c && sub32 k.frame.seq n < 2 ^ 31)
        t.f (oPlCnt p) 47 32 = min (s.f (oPlCnt p) 47 32 + again.length) 65535 ∧ t.out.link.length = s.out.link.length + again.length ∧
          RegsBut [oPlCnt p] s t ∧ t.mem = s.mem)) ∧
    (rx.good = false → exec (.peerFrame p ws) s = .next ((s'.count (oPlCnt p) 63 48 1).txLink p (some (f.cls, want)) none 0xFF)) ∧
    (rx.good = true → 5 < f.cls → exec (.peerFrame p ws) s = .next ((s'.count (oPlCnt p) 15 0 1).txLink p none (some (f.seq, 0x17)) 0xFF))) ∧
  (∀ (s : State) (p peer locked : Nat), s.wf = true → 2 ≤ s.pin.phase → p < 8 → s.peer.ports.length = 8 → s.b oPlCfg p = true → peer < 256 →
    let ls := (List.range 9).filter (fun l => locked.testBit l)
    (ls.length < 4 → Leads (.peerPortUp p peer locked) s (fun t => t.portUp p = false ∧ (t.port p).txen = 0x1FF ∧
      t.f (oPlStat p) 24 16 = locked % 512 ∧ t.f (oPlStat p) 39 36 = 0)) ∧
    (4 ≤ ls.length → Leads (.peerPortUp p peer locked) s (fun t => t.portUp p = true ∧ (t.port p).txen = 0x1FF ∧ t.f (oPlStat p) 47 40 = peer ∧
      t.f (oPlStat p) 39 36 = min ls.length 8 ∧ t.f (oPlStat p) 24 16 = locked % 512 ∧ (t.port p).lanes = ls.take 8 ∧
      (t.port p).spare = (ls.drop 8).head? ∧ t.b (oPlStat p) 2 = decide (ls.length < 8) ∧
      (∃ tx ∈ t.out.link.getLast?, tx.port = p ∧ tx.frame.cls = 0 ∧ tx.frame.src = s.me ∧ tx.lanes.map (·.1) = ls.take 8) ∧
      (s.run .sq = none → t.mem = s.mem)))) ∧
  ((∀ (s : State) (p l k : Nat), s.wf = true → 2 ≤ s.pin.phase → p < 8 → l < 9 → s.peer.ports.length = 8 → s.portUp p = true →
    (s.port p).spare = some k → k ≠ l → (s.port p).lanes.contains l = true →
    Leads (.laneSwap p l) s (fun t => (t.port p).lanes = (s.port p).lanes.map (fun i => if i = l then k else i) ∧ (t.port p).spare = none ∧
      (k = 8 → t.f (oPlStat p) 15 12 = l) ∧ t.f (oPlCnt p) 31 16 = min (s.f (oPlCnt p) 31 16 + 1) 65535 ∧
      t.f oFaultLog 63 32 = next32 (s.f oFaultLog 63 32) ∧ (∃ tx ∈ t.out.link.getLast?, tx.port = p ∧ tx.frame.swap = l) ∧
      t.b (oAdmitReport 1) 0 = true ∧ t.b (oAdmitReport 2) 0 = true)) ∧
  (∀ (s : State) (p l : Nat), s.wf = true → 2 ≤ s.pin.phase → p < 8 → s.peer.ports.length = 8 → s.portUp p = true → (s.port p).spare = none →
    (s.port p).lanes.contains l = true →
    let rest := (s.port p).lanes.filter (· != l)
    (4 ≤ rest.length → Leads (.laneSwap p l) s (fun t => (t.port p).lanes = rest ∧ t.portUp p = true ∧
      (∃ tx ∈ t.out.link.getLast?, tx.port = p ∧ tx.frame.swap = l) ∧ t.mem = s.mem)) ∧
    (rest.length < 4 → Leads (.laneSwap p l) s (fun t => t.portUp p = false ∧ (t.port p).lanes = [] ∧ t.b oFaultRecord 63 = true))) ∧
  ∀ (s : State) (p l k : Nat), Ready s → p < 8 → s.peer.ports.length = 8 → l < 9 → s.portUp p = true → (s.port p).spare = some k →
    (s.port p).lanes.contains l = true →
    Leads (.linkCalibration p l) s (fun t => (t.port p).lanes = (s.port p).lanes.map (fun i => if i = l then k else i) ∧
      (t.port p).spare = some l ∧ t.portUp p = true ∧ t.out = s.out ∧ t.mem = s.mem))

/-! Streams -/

/-- A producer claims the entry at TAIL for the tiles that follow those claimed already, as many as a slot holds (R231, R235); without SPACE, with the
prefetch depth claimed (R238), where a gate holds the tile back (R241) or nothing may issue, the claim waits and changes nothing. The oldest tile in
flight that completes leaves flight, and its command goes on or, when that was the last one, completes (R236). -/
def Obligations.RingsAreClaimedAndTilesComplete : Prop :=
  (∀ (s : State) (q : Queue) (r : Run) (w : StreamWork) (x : GRing) (k : Nat), Ready s → s.run q = some r → (∀ p, p ≠ q → s.run p = none) →
    s.streamWork r = some w → w.group.find? (fun y => y.ring == k) = some x → s.nextClaim w x < w.feed.tiles → k < s.rings.length →
    (s.mayIssue q { r with issued := false } = true → w.gate x (s.nextClaim w x) = true → (∀ y ∈ w.group, (s.ring y.ring).slots ≠ 0 → (s.ring y.ring).user = userId q r.seq) →
      (s.ring k).entries = [] → 0 < (s.ring k).slots → 0 < (s.ring k).depth → 0 < (s.ring k).rsv → s.engineStopped (engineOf k) = false →
      Leads (.ringClaim k) s (fun t => (t.ring k).moved = true ∧ (∃ e, (t.ring k).entries = [e] ∧ e.desc = w.desc ∧ e.first = s.nextClaim w x ∧
        e.count = max 1 (min x.cap (w.feed.tiles - s.nextClaim w x)) ∧ e.taken = 0 ∧ e.done = 0 ∧ e.borrowed = false) ∧
        t.queues = s.queues ∧ t.jobs = s.jobs ∧ t.mem = s.mem ∧ RegsBut [oTierCount] s t)) ∧
    (s.mayIssue q { r with issued := false } = false ∨ w.gate x (s.nextClaim w x) = false → exec (.ringClaim k) s = .next s) ∧
    ((∀ y ∈ w.group, (s.ring y.ring).slots ≠ 0 → (s.ring y.ring).user = userId q r.seq) → ((s.ring k).space = 0 ∨ (s.ring k).depth ≤ (s.ring k).ahead) →
      exec (.ringClaim k) s = .next s)) ∧
  (∀ (s : State) (q : Queue) (r : Run) (j : Job), Ready s → Last s q r →
    r.opc ∈ [0x10, 0x11, 0x20, 0x21, 0x30, 0x31, 0x44, 0x45, 0x47] → opcOk q r.opc = true → r.aborting = false →
    s.jobs.find? (fun j => j.q = q && j.seq = r.seq) = some j → s.unitWait r = false → j.pages = [] →
    Leads (.tileComplete q) s (fun t => t.jobs = s.jobs.erase j ∧
      if r.issued = true ∧ (s.jobs.erase j).all (fun j => !(j.q = q && j.seq = r.seq)) = true ∧ s.b oAmberStat 1 = false then Done q r.seq t
      else ∃ r', t.run q = some r' ∧ r'.seq = r.seq ∧ r'.opc = r.opc ∧ t.doneSeq q = s.doneSeq q))

/-- A stream whose read meets a page whose data is being fetched stops, once the other producers of its group have filled what they could (R245): the
stop is recorded, STRM_STOP_POS and STRM_STOP_PAGE name the queue, the tile and the page (R253), no entry is added, and no tile in flight is lost. A
stop ends when its page is no longer being fetched (R246): with the page there the stream has resumed and the command counts as recovered, with a
page that stays poisoned it skips; STATE of STRM_STOP_POS says which. Until then it goes on. -/
def Obligations.StreamsStopAndResume : Prop :=
  (∀ (s : State) (q : Queue) (r : Run) (w : StreamWork) (x : GRing) (k i page : Nat), Ready s → s.run q = some r → s.streamWork r = some w →
    k < 32 → x ∈ w.group → x.out = false → engineOf x.ring = k → (∀ y ∈ w.group, y.out = false → y ≠ x → engineOf y.ring ≠ k) →
    ((s.fillAll q w.desc w.feed w.group).ring x.ring).standsAt w.desc = some i → (w.name i).desc < 65536 → (w.name i).tile < 2 ^ 32 →
    page ∈ (s.fillAll q w.desc w.feed w.group).pagesOf (w.feed.reads x.ring i) → page < 2 ^ 22 → (s.page page).st = .fetching →
    s.stops.any (fun y => y.engine = k && y.q = q) = false →
    Leads (.streamStop q k (w.name i) page) s (fun t =>
      t.stops = s.stops ++ [if i ≤ w.tile then ⟨k, q, r.seq, r.desc, r.tile, page⟩ else ⟨k, q, r.seq, w.desc, i, page⟩] ∧
      t.engineStopped k = true ∧ t.f (oStrmStopPos k) 63 48 = (w.name i).desc ∧ t.f (oStrmStopPos k) 47 16 = (w.name i).tile ∧
      t.f (oStrmStopPos k) 15 14 = qIdx q ∧ t.f (oStrmStopPos k) 3 0 = 1 ∧ t.f (oStrmStopPage k) 47 21 = 2 ^ 19 + page ∧
      RegsBut [oStrmStopPos k, oStrmStopPage k, oTierCount] s t ∧ t.mem = s.mem ∧ t.jobs = s.jobs ∧ t.queues = s.queues ∧
      ∀ e ∈ (t.ring x.ring).entries, e ∈ ((s.fillAll q w.desc w.feed w.group).ring x.ring).entries)) ∧
  (∀ (s : State) (x : Stop) (r : Run), Ready s → x.engine < 32 → s.stops = [x] → s.run x.q = some r → r.seq = x.seq → s.queues.length = 4 →
    ((s.page x.page).st = .resident →
      Leads (.streamStopEnd x.engine) s (fun t => t.stops = [] ∧ t.f (oStrmStopPos x.engine) 3 0 = 2 ∧ RegsBut [oStrmStopPos x.engine] s t ∧
        t.run x.q = some { r with t := { r.t with recovered := true } } ∧ t.rings = s.rings ∧ t.mem = s.mem)) ∧
    ((s.page x.page).st = .poisoned →
      Leads (.streamStopEnd x.engine) s (fun t => t.stops = [] ∧ t.f (oStrmStopPos x.engine) 3 0 = 3 ∧ RegsBut [oStrmStopPos x.engine] s t ∧
        t.queues = s.queues ∧ t.rings = s.rings ∧ t.mem = s.mem)) ∧
    ((s.page x.page).st = .fetching → exec (.streamStopEnd x.engine) s = .next s))

/-- An engine whose ring has work and has not moved its pointers at two boundaries trips the watchdog (R248): its command ends ABORTED in its SEQ
position with nothing in flight, STRM_WDOG names engine, state and command, and the fault record the class (R250). Any other engine changes nothing. -/
def Obligations.TheWatchdogTrips : Prop :=
  (∀ (s : State) (q : Queue) (r : Run) (k : Nat), Ready s → LinesGood s → Last s q r →
    r.opc ∈ [0x10, 0x11, 0x20, 0x21, 0x22, 0x30, 0x31, 0x32, 0x40, 0x41, 0x42, 0x43, 0x44, 0x45, 0x47] → opcOk q r.opc = true → k < 256 →
    2 ≤ (s.ring (s.lastRing k)).stalls → (s.ring (s.lastRing k)).user = userId q r.seq →
    Leads (.streamWatchdog k) s (fun t => Done q r.seq t ∧ t.byte (s.compAddr q r.seq + 5) = 0x2F#8 ∧
      (∀ j ∈ t.jobs, ¬ (j.q = q ∧ j.seq = r.seq)) ∧ t.b oStrmWdog 63 = true ∧ t.f oStrmWdog 55 48 = k ∧ t.f oStrmWdog 47 44 = s.streamState k ∧
      t.f oStrmWdog 43 42 = qIdx q ∧ t.f oStrmWdog 31 0 = r.seq ∧
      t.f oStrmWdogBeat 47 0 = s.beat ∧ t.b oFaultRecord 63 = true ∧
      (s.b oFaultRecord 63 = false → t.f oFaultRecord 55 48 = 0x10 ∧ t.f oFaultRecord 47 40 = 0x2F ∧ t.f oFaultRecord 31 0 = r.seq))) ∧
  ∀ (s : State) (k : Nat), Ready s → (s.ring (s.lastRing k)).stalls < 2 → exec (.streamWatchdog k) s = .next s

/-! Tiers and flash -/

/-- A page put up for promotion takes a free frame (R332): with no unit on flash it is RESIDENT at once and its bytes read zero; with one unit mapped,
that unit is read, and the page is PROMOTING. A request for a page that is not held and has waited TIMEOUT beats is late, and TIER_STAT says so of a
tile or a burst (R333, R352); before that nothing happens. -/
def Obligations.PromotionsStartOrGoLate : Prop :=
  ((∀ (s : State) (i f : Nat) (rest : List Nat), Ready s → NothingWaits s → s.b oAmberStat 1 = false → i < s.f oTierMap 22 0 →
    s.tier.waits.any (fun w => w.page = i && !(w.q = 3 && w.who = readThrough)) = true → ((s.page i).st = .zero ∨ (s.page i).st = .flash) →
    s.tier.free = f :: rest →
    (∀ k, k < 128 → s.unitAt (128 * i + k) = none) →
    Leads (.promotionStart i) s (fun t => (t.page i).st = .resident ∧ (t.page i).frame = some f ∧ (t.page i).dirty = false ∧
      t.tier.free = rest.filter (· != f) ∧
      t.f oTierCount 63 32 = next32 (s.f oTierCount 63 32) ∧ RegsBut [oTierCount, oFlashStat, oFlashWear] s t ∧
      (∀ a, t.byte a = if pageAddr i ≤ a ∧ a < pageAddr i + 2 ^ 21 then memDflt a else s.byte a) ∧ (∀ j, j ≠ i → t.page j = s.page j))) ∧
  ∀ (s : State) (i f u p : Nat) (rest : List Nat), Ready s → NothingWaits s → s.b oAmberStat 1 = false → i < s.f oTierMap 22 0 →
    s.tier.waits.any (fun w => w.page = i && !(w.q = 3 && w.who = readThrough)) = true → (s.page i).st = .flash → s.tier.free = f :: rest → s.tier.units = [(u, p)] → u / 128 = i →
    p < 2 ^ 32 - 1 → s.chFailed (p / 2 ^ 29) = false → s.tier.ops = [] → s.tier.backlog = [] →
    Leads (.promotionStart i) s (fun t => (t.page i).st = .promoting ∧ (t.page i).frame = some f ∧ t.tier.free = rest.filter (· != f) ∧
      (∃ o, t.tier.ops = [o] ∧ o.kind = 1 ∧ o.level = 0 ∧ o.addr = addrOf p ∧ o.use = .promote i u) ∧
      t.out.bridge.length = s.out.bridge.length + 1 ∧ RegsBut [oFlashStat, oFlashWear] s t)) ∧
  (∀ (s : State) (w : Wait), Ready s → NothingWaits s → s.tier.waits = [w] → w.late = false → w.q ≤ 5 →
    (w.since + s.f oTierCfg 63 48 ≤ s.beat → (s.page w.page).served = false →
      exec (.tierTimeout w.page) s =
        .next (let t : State := { s with tier := { s.tier with waits := [{ w with late := true }] } }
               if w.q < 5 then t.setB oTierStat 0 true else t)) ∧
    (s.beat < w.since + s.f oTierCfg 63 48 → exec (.tierTimeout w.page) s = .next s))

/-- A lost page that the partner answers with bytes of its digest is RESIDENT with those bytes, and dirty (R347). Any other answer, or none for TIMEOUT
beats, poisons the page: its frame is free, and a detected fault of class 0x0E with result 0x21 is recorded. -/
def Obligations.LostPagesAreFetchedOrPoisoned : Prop :=
  (∀ (s : State) (src i f : Nat) (bs : List Byte), Ready s → NothingWaits s → s.reg oChFailed = 0#64 → s.partner = some src → s.tier.fetches.any (·.1 == i) = true →
    bs.length = 2 ^ 21 → crc32c bs = (s.page i).digest → (s.page i).frame = some f →
    Leads (.pageFetchAnswer src i (some bs)) s (fun t => (t.page i).st = .resident ∧ (t.page i).dirty = true ∧ (t.page i).frame = some f ∧
      t.tier.fetches.any (·.1 == i) = false ∧ RegsBut [oCrimsonLog, oFlashStat, oFlashWear] s t ∧
      ∀ a, t.byte a = if pageAddr i ≤ a ∧ a < pageAddr i + 2 ^ 21 then nth 0#8 bs (a - pageAddr i) else s.byte a)) ∧
  ∀ (s : State) (src i : Nat) (c : Instr), Ready s → NothingWaits s → s.partner = some src → s.tier.fetches.any (·.1 == i) = true →
    (c = .pageFetchAnswer src i none ∨
      (∃ bs : List Byte, c = .pageFetchAnswer src i (some bs) ∧ (bs.length ≠ 2 ^ 21 ∨ crc32c bs ≠ (s.page i).digest)) ∨
      (c = .pageFetchTimeout i ∧ s.tier.fetches.any (fun x => x.1 = i && x.2 + s.f oTierCfg 63 48 ≤ s.beat) = true)) →
    Leads c s (fun t => (t.page i).st = .poisoned ∧ (t.page i).frame = none ∧ (∀ f, (s.page i).frame = some f → f ∈ t.tier.free) ∧
      t.tier.fetches.any (·.1 == i) = false ∧ t.b oFaultRecord 63 = true ∧
      (s.b oFaultRecord 63 = false → t.f oFaultRecord 55 48 = 0x0E ∧ t.f oFaultRecord 47 40 = 0x21) ∧
      t.f oFaultLog 63 32 = next32 (s.f oFaultLog 63 32))

/-- A good read of the last unit of a promotion makes its page RESIDENT with the unit's bytes (R332). An uncorrectable read below the last retry level
is tried at the next one: a set features for the level, and then the read again (R346). An operation without an answer in its time, an erase after
eight times that of the others, is issued once more (R344); without an answer again, its channel has failed: FLASH_STAT says so and the fault is
logged; the operation is dropped, where it is an erase and no LUN of another channel has a full block to give up in its place (R345). Before its
time nothing is done. -/
def Obligations.BridgeReadsEndOrAreRetried : Prop :=
  ((∀ (s : State) (ch opid ecc corrected p u : Nat) (o : BridgeOp) (data : List Byte) (spare : Spare), Ready s → NothingWaits s →
    s.reg oChFailed = 0#64 → s.opOf ch opid = some o → o.kind = 1 → o.level = 0 → o.use = .promote p u → s.tier.backlog = [] →
    (∀ x ∈ s.tier.ops, x ≠ o → ∀ v, x.use ≠ .promote p v) → (s.page p).st = .promoting → ecc < 2 → data.length = 16384 → crc32c data = spare.crc →
    Leads (.bridgeReadStatus ch opid ecc corrected data spare) s (fun t => (t.page p).st = .resident ∧ (t.page p).digest = spare.digest ∧
      (t.page p).dirty = false ∧ t.opOf ch opid = none ∧ t.f oTierCount 63 32 = next32 (s.f oTierCount 63 32) ∧
      RegsBut [oTierCount, oFlashStat, oFlashWear] s t ∧
      ∀ a, t.byte a = if pageAddr p + 16384 * (u % 128) ≤ a ∧ a < pageAddr p + 16384 * (u % 128) + 16384 then
        nth 0#8 data (a - (pageAddr p + 16384 * (u % 128))) else s.byte a)) ∧
  (∀ (s : State) (ch opid ecc corrected : Nat) (o : BridgeOp) (data : List Byte) (spare : Spare), Ready s → NothingWaits s →
    s.b oAmberStat 1 = false → s.tier.ops = [o] → s.tier.backlog = [] → o.ch = ch → o.opid = opid → o.kind = 1 → 2 ≤ ecc → o.level < s.f oFlashCfg 47 44 →
    Leads (.bridgeReadStatus ch opid ecc corrected data spare) s (fun t => t.mem = s.mem ∧ t.tier.pages = s.tier.pages ∧
      RegsBut [oFlashStat, oFlashWear] s t ∧ ∃ x, t.tier.ops = [x] ∧ x.kind = 5 ∧ x.level = o.level + 1 ∧ x.use = o.use)) ∧
  ∀ (s : State) (ch opid : Nat) (o : BridgeOp), Ready s → NothingWaits s → s.b oAmberStat 1 = false → s.tier.ops = [o] → s.tier.backlog = [] →
    o.ch = ch → o.opid = opid → o.kind = 5 →
    (0 < o.level → Leads (.bridgeSetFeaturesStatus ch opid) s (fun t => t.mem = s.mem ∧ t.tier.pages = s.tier.pages ∧
      RegsBut [oFlashStat, oFlashWear] s t ∧ ∃ x, t.tier.ops = [x] ∧ x.kind = 1 ∧ x.level = o.level ∧ x.use = o.use)) ∧
    (o.level = 0 → Leads (.bridgeSetFeaturesStatus ch opid) s (fun t => t.tier.ops = [] ∧ t.out = s.out))) ∧
  (∀ (s : State) (ch opid : Nat) (o : BridgeOp), Ready s → NothingWaits s → ch < 8 → s.tier.ops = [o] → s.tier.backlog = [] → o.ch = ch → o.opid = opid →
    let limit := s.f oFlashCfg 43 32 * (if o.kind = 3 then 8 else 1)
    (o.issued + limit ≤ s.beat → o.reissued = false →
      Leads (.bridgeTimeout ch opid) s (fun t => t.tier.ops = [{ o with reissued := true, issued := s.beat }] ∧
        (∃ x ∈ t.out.bridge.getLast?, x.ch = ch ∧ x.opid = opid ∧ x.kind = o.kind ∧ x.addr = o.addr) ∧
        t.out.bridge.length = s.out.bridge.length + 1 ∧ RegsBut [oFlashStat, oFlashWear] s t)) ∧
    (o.issued + limit ≤ s.beat → o.reissued = true → o.kind = 3 → (∃ k, o.use = .erase k) → (∀ e ∈ s.tier.blocks, e.2.state ≠ 2) →
      Leads (.bridgeTimeout ch opid) s (fun t => t.tier.ops = [] ∧ t.b oFlashStat (8 + ch) = true ∧ t.out.bridge = s.out.bridge ∧
        t.f oFaultLog 63 32 = next32 (s.f oFaultLog 63 32))) ∧
    (s.beat < o.issued + limit →
      Leads (.bridgeTimeout ch opid) s (fun t => OnlyLive s t ∧ RegsBut [oFlashStat, oFlashWear] s t)))

/-- The status word of a program or of an erase is followed by its read status, an operation of its own (R343, R415). A program that its read status
says passed maps its unit to the page programmed (R338); an erase that passed leaves its block free, erased once more (R339); one that failed
retires the block as grown-bad (R341). -/
def Obligations.BridgeProgramsAndErasesEnd : Prop :=
  (∀ (s : State) (ch opid : Nat) (failed : Bool) (o : BridgeOp) (c : Instr), Ready s → NothingWaits s → s.b oAmberStat 1 = false →
    s.tier.ops = [o] → s.tier.backlog = [] → o.ch = ch → o.opid = opid →
    ((c = .bridgeProgramStatus ch opid failed ∧ o.kind = 2) ∨ (c = .bridgeEraseStatus ch opid failed ∧ o.kind = 3)) →
    Leads c s (fun t => (∃ x, t.tier.ops = [x] ∧ x.kind = 4 ∧ x.ch = ch ∧ x.addr = o.addr ∧ x.use = o.use ∧ x.issued = s.beat) ∧
      (∃ x ∈ t.out.bridge.getLast?, x.ch = ch ∧ x.kind = 4 ∧ x.addr = o.addr) ∧ t.out.bridge.length = s.out.bridge.length + 1 ∧
      t.tier.units = s.tier.units ∧ t.tier.blocks = s.tier.blocks ∧ t.mem = s.mem ∧ RegsBut [oFlashStat, oFlashWear] s t)) ∧
  (∀ (s : State) (ch opid u : Nat) (o : BridgeOp), Ready s → NothingWaits s → s.opOf ch opid = some o → o.kind = 4 → o.use = .store u →
    s.tier.backlog = [] → physOf o.addr ≠ 0xFFFFFFFF →
    Leads (.bridgeProgramStatus ch opid false) s (fun t => t.unitAt u = some (physOf o.addr) ∧ t.opOf ch opid = none ∧
      (∀ v, v ≠ u → t.unitAt v = s.unitAt v) ∧ RegsBut [oFlashStat, oFlashWear] s t ∧ t.mem = s.mem)) ∧
  (∀ (s : State) (ch opid : Nat) (o : BridgeOp) (c : Instr), Ready s → NothingWaits s → s.opOf ch opid = some o → o.kind = 4 →
    s.tier.backlog = [] →
    ((c = .bridgeProgramStatus ch opid true ∧ o.use = .void) ∨ (c = .bridgeEraseStatus ch opid true ∧ ∃ k, o.use = .erase k)) →
    (s.block (physOf o.addr / 1024)).state ≠ 3 →
    Leads c s (fun t => (t.block (physOf o.addr / 1024)).state = 3 ∧ t.opOf ch opid = none ∧
      t.f oFlashStat 31 16 = min (s.f oFlashStat 31 16 + 1) 65535 ∧ RegsBut [oFlashStat, oFlashWear] s t ∧ t.mem = s.mem)) ∧
  ∀ (s : State) (ch opid k : Nat) (o : BridgeOp), Ready s → NothingWaits s → s.opOf ch opid = some o → o.kind = 4 → o.use = .erase k →
    s.tier.backlog = [] →
    Leads (.bridgeEraseStatus ch opid false) s (fun t =>
      t.block (physOf o.addr / 1024) = ⟨(s.block (physOf o.addr / 1024)).erases + 1, 0, 0, 0, 0⟩ ∧ t.opOf ch opid = none ∧
      RegsBut [oFlashStat, oFlashWear] s t ∧ t.mem = s.mem)

/-- The eviction of a clean page with DEMOTE set, while free frames number fewer than LOW_WATER, frees its frame: it is FLASH or, with no unit mapped,
ZERO (R334). With enough free frames nothing is evicted. A LUN with fewer than 16 free blocks collects its full block, which without valid units is
erased at once (R339). Wear levelling, once the highest erase count is more than its delta above the lowest, opens a block of its own in the LUN of
the full block that it empties (R339). -/
def Obligations.EvictionAndCollectionFreeSpace : Prop :=
  ((∀ (s : State) (i f : Nat) (g : Page), Ready s → NothingWaits s → s.b oAmberStat 1 = false → s.tier.free.length < s.f oTierCfg 47 40 →
    s.tier.pages.find? (fun e => e.2.demote && s.evictable e.1 e.2) = some (i, g) → s.page i = g → g.dirty = false → g.frame = some f →
    Leads .eviction s (fun t => (t.page i).st = (if s.hasFlash i then .flash else .zero) ∧ (t.page i).frame = none ∧ f ∈ t.tier.free ∧
      (∀ j, j ≠ i → t.page j = s.page j) ∧ RegsBut [oFlashStat, oFlashWear] s t ∧
      ∀ a, t.byte a = if pageAddr i ≤ a ∧ a < pageAddr i + 2 ^ 21 then memDflt a else s.byte a)) ∧
  ∀ s : State, Ready s → NothingWaits s → s.f oTierCfg 47 40 ≤ s.tier.free.length →
    Leads .eviction s (fun t => OnlyLive s t ∧ RegsBut [oFlashStat, oFlashWear] s t)) ∧
  ((∀ (s : State) (lun k : Nat) (b : Block), Ready s → NothingWaits s → s.b oAmberStat 1 = false → s.lunOrder.contains lun = true →
    s.freeBlocks lun < 16 →
    (s.lunUsed lun).filter (·.2.state == 2) = [(k, b)] → s.block k = b → s.validIn k = [] → s.tier.ops = [] → s.tier.backlog = [] →
    s.chFailed (k / 2 ^ 19) = false →
    Leads (.garbageCollection lun) s (fun t => (∃ o, t.tier.ops = [o] ∧ o.kind = 3 ∧ o.use = .erase k) ∧ t.mem = s.mem ∧ t.tier.units = s.tier.units ∧
      RegsBut [oFlashStat, oFlashWear] s t)) ∧
  ∀ (s : State) (k d : Nat) (b : Block), Ready s → NothingWaits s → s.f oFlashWear 31 0 + s.f oFlashCfg 7 0 * 16 < s.f oFlashWear 63 32 →
    s.tier.blocks.filter (·.2.state == 2) = [(k, b)] → s.block k = b → s.validIn k = [] → s.pickBlock (k / 2 ^ 16) true = some d → d ≠ k →
    Leads .wearLevelling s (fun t => (t.block d).state = 1 ∧ (t.block d).next = 0 ∧ t.mem = s.mem ∧ t.tier.units = s.tier.units))

/-- A refresh reads the valid unit of the first block queued and puts the block up for erase (R340); the patrol, once every 2^26 beats, reads the first,
the middle and the last programmed page of a block with a valid unit (R340), and does nothing before its beat. A checkpoint that is due takes the
next number and records the mapping and the block table as they stand; one that follows a seal keeps the lifetime counters (R385). With flash
channels, every section that has changed is programmed in four pages tagged with the number and the section's CRC-32C, into the slot that does not
hold its last copy, and a commit record is programmed with the number (R342, R343). Without one due nothing changes. -/
def Obligations.RefreshPatrolAndCheckpoint : Prop :=
  ((∀ (s : State) (k u p : Nat) (rest : List Nat), Ready s → NothingWaits s → s.b oAmberStat 1 = false → s.tier.refreshQ = k :: rest →
    s.validIn k = [(u, p)] → s.chFailed (p / 2 ^ 29) = false → s.tier.ops = [] → s.tier.backlog = [] →
    Leads .refresh s (fun t => t.tier.refreshQ = rest ∧ t.tier.reclaim = [k] ∧ t.tier.units = s.tier.units ∧ t.mem = s.mem ∧
      ∃ o, t.tier.ops = [o] ∧ o.kind = 1 ∧ o.use = .relocate u p none)) ∧
  (∀ (s : State) (u p : Nat), Ready s → NothingWaits s → s.b oAmberStat 1 = false → s.tier.patrolAt ≤ s.beat → s.tier.units = [(u, p)] →
    p < 2 ^ 32 - 1 → (s.block (p / 1024)).next ≤ 1024 → s.tier.ops = [] → s.tier.backlog = [] → s.chFailed (p / 2 ^ 29) = false →
    Leads .patrol s (fun t => t.tier.patrolAt = s.tier.patrolAt + 2 ^ 26 ∧ t.mem = s.mem ∧
      (let n := max (s.block (p / 1024)).next (p % 1024 + 1)
       t.tier.ops.map (fun o => physOf o.addr) = [0, (n - 1) / 2, n - 1].eraseDups.map (p / 1024 * 1024 + ·)) ∧
      ∀ o ∈ t.tier.ops, o.kind = 1 ∧ o.level = 0)) ∧
  ∀ s : State, Ready s → NothingWaits s → s.beat < s.tier.patrolAt →
    Leads .patrol s (fun t => OnlyLive s t ∧ RegsBut [oFlashStat, oFlashWear] s t)) ∧
  (∀ s : State, Ready s → (s.tier.ckptDue = 0 → exec .checkpoint s = .next s) ∧
    (s.tier.ckptDue ≠ 0 → Leads .checkpoint s (fun t => t.tier.ckpt = s.tier.ckpt + 1 ∧ t.tier.ckptDue = 0 ∧ t.tier.opened = 0 ∧
      t.tier.ckptUnits = s.tier.units ∧ t.tier.ckptBlocks = s.tier.blocks ∧ t.tier.units = s.tier.units ∧ t.tier.blocks = s.tier.blocks ∧
      t.res = { s.res with lifeBase := if s.tier.ckptDue = 2 then (List.range 8).map (fun k => s.f (oLife k) 63 0) else s.res.lifeBase } ∧
      t.live = s.live ∧ t.mem = s.mem ∧
      (s.channels ≠ 0 → (∀ k ∈ s.ckptSects, fget (fun _ => 1) t.tier.slots k = 1 - fget (fun _ => 1) s.tier.slots k ∧
          ∀ i, i < 4 → ∃ o ∈ t.tier.ops ++ t.tier.backlog, o.kind = 2 ∧ o.data = unitData (s.sectBytes k) i ∧ o.spare.kind = 2 ∧
            o.use = .ckpt (s.tier.ckpt + 1) (crc32c (s.sectBytes k))) ∧
        ∃ o ∈ t.tier.ops ++ t.tier.backlog, o.kind = 2 ∧ o.use = .ckptEnd (s.tier.ckpt + 1)))))

/-! Faults, supply, temperature -/

/-- A correctable error of a lane in service is recorded, logged as masked, and replays tiles in flight, which are counted (R136); one whose kind asks
for it retires the lane to the lowest spare, and the fabric waits until the spare is loaded (R137, R138). -/
def Obligations.LanesFailAndAreSpared : Prop :=
  (∀ (s : State) (p kind cell i : Nat) (fl : InFlight), Ready s → p < 264 → s.lanesOut.contains p = false → placeOf s.fab.laneMap p = some i → i < 256 →
    kind ∈ [1, 3, 4, 5] → cell < 256 → countRule (s.reg oFabCfg) (errCount (s.marks s.fab.laneErrs p (s.f oFabCfg 15 0)) p) = false →
    Leads (.laneError p kind cell fl) s (fun t => t.fab.laneErrs = s.marks s.fab.laneErrs p (s.f oFabCfg 15 0) ∧ t.fab.laneMap = s.fab.laneMap ∧
      t.f oFabErr 47 40 = kind ∧ t.f oFabErr 39 32 = cell ∧ t.f oFabErr 24 16 = p ∧ t.b oFabErr 25 = false ∧ t.f oFabErr 7 0 = i ∧
      t.f oFabErrBeat 47 0 = s.beat ∧ t.b oFabStat 0 = true ∧ t.f oFaultLog 63 32 = next32 (s.f oFaultLog 63 32) ∧
      t.f oFabStat 63 32 = min (s.f oFabStat 63 32 + min fl.gq (s.fabricTiles .gq) + min fl.aq (s.fabricTiles .aq) + min fl.uq (s.fabricTiles .uq) +
        min fl.sq (s.fabricTiles .sq)) (2 ^ 32 - 1) ∧ RegsBut [oFabErr, oFabErrBeat, oFabStat, oFaultLog, oLife 7] s t ∧
      t.jobs.map (fun j => { j with again := false }) = s.jobs.map (fun j => { j with again := false }))) ∧
  (∀ (s : State) (p kind cell i r : Nat) (fl : InFlight), Ready s → p < 264 → s.lanesOut.contains p = false → placeOf s.fab.laneMap p = some i →
    (kind = 2 ∨ kind = 6) → (pool 264 s.fab.laneMap s.lanesOut).head? = some r →
    Leads (.laneError p kind cell fl) s (fun t => t.fab.laneMap = setNth s.fab.laneMap i r ∧ t.fab.laneLoad = true ∧
      t.b (oFabRetired (p / 64)) (p % 64) = true ∧ t.b oFabStat 1 = true ∧ t.f oFaultLog 63 32 = next32 (next32 (s.f oFaultLog 63 32)))) ∧
  ∀ s : State, Ready s → exec .laneSpareLoaded s = .next { s with fab := { s.fab with laneLoad := false } }

/-- An error of a matrix row in service is recorded and logged as masked (R223); one whose kind asks for it retires the row to the lowest spare (R224).
A two-bit error of a filled ring slot is refilled: counted, logged, and its command has recovered (R362). A corrected word of a bank in service is
counted and logged, and once CE_LIMIT such words within CE_WINDOW are reached the bank retires; so does the bank of a refilled word that fails
again, of that word alone (R363). A retired bank passes to the lowest spare bank, and its users pause until the copy is done. A changed variant with
none of its old tiles in flight, once loaded, resumes: it is loading no more (R134, R164); while it drains, nothing changes. -/
def Obligations.RowsBanksAndVariantsComeBack : Prop :=
  (∀ (s : State) (p kind i : Nat), Ready s → p < 132 → s.rowsOut.contains p = false → placeOf s.fab.rowMap p = some i → i < 256 →
    (kind = 1 → countRule (s.reg oMxCfg) (errCount (s.marks s.fab.rowErrs p (s.f oMxCfg 15 0)) p) = false →
      Leads (.rowError p kind) s (fun t => t.fab.rowMap = s.fab.rowMap ∧ t.f oMxErr 47 40 = 1 ∧ t.f oMxErr 23 16 = p ∧ t.f oMxErr 7 0 = i ∧
        t.f oMxErrBeat 47 0 = s.beat ∧ t.b oMxStat 0 = true ∧ t.f oFaultLog 63 32 = next32 (s.f oFaultLog 63 32))) ∧
    (∀ r, 2 ≤ kind → kind ≤ 4 → (pool 132 s.fab.rowMap s.rowsOut).head? = some r →
      Leads (.rowError p kind) s (fun t => t.fab.rowMap = setNth s.fab.rowMap i r ∧ t.b (oMxRetired (p / 64)) (p % 64) = true ∧
        t.b oMxStat 1 = true ∧ t.f oFaultLog 63 32 = next32 (next32 (s.f oFaultLog 63 32))))) ∧
  ((∀ (s : State) (a : SramAddr) (q : Queue) (r : Run), Ready s → s.queues.length = 4 → s.res.sram.contains (some a.bank) = true → s.run q = some r →
    Leads (.sramDoubleBit a (.ringSlot q)) s (fun t => t.b oSramStat 0 = true ∧ t.f oSramStat 23 16 = min (s.f oSramStat 23 16 + 1) 255 ∧
      t.run q = some { r with t := { r.t with recovered := true } } ∧ a ∈ t.res.refilled ∧ t.f oFaultLog 63 32 = next32 (s.f oFaultLog 63 32) ∧
      t.jobs = s.jobs)) ∧
  (∀ (s : State) (p : Nat), Ready s →
    (s.res.sram.contains (some p) = true → countRule (s.reg oSramCfg) (errCount (s.marks s.res.sramErrs p (s.f oSramCfg 15 0)) p) = false →
      Leads (.sramBankRetire (.corrected p)) s (fun t => t.f oSramStat 63 32 = next32 (s.f oSramStat 63 32) ∧
        t.f (oLife 6) 63 0 = min (s.f (oLife 6) 63 0 + 1) (2 ^ 64 - 1) ∧ t.f oFaultLog 63 32 = next32 (s.f oFaultLog 63 32) ∧
        t.res = { s.res with sramErrs := s.marks s.res.sramErrs p (s.f oSramCfg 15 0) } ∧ RegsBut [oSramStat, oLife 6, oFaultLog] s t ∧
        t.queues = s.queues)) ∧
    (s.res.sram.contains (some p) = false → exec (.sramBankRetire (.corrected p)) s = .next s)) ∧
  (∀ (s : State) (a : SramAddr) (e : SramEvent) (i r : Nat), Ready s → a.bank < 66 → s.res.sramOut.contains a.bank = false →
    s.bankPool.head? = some r → s.res.sram.length = 64 →
    (List.range 64).find? (fun i => s.res.sram[i]? == some (some a.bank)) = some i →
    ((e = .failedAgain a ∧ s.res.refilled.contains a = true) ∨ (e = .corrected a.bank ∧
      countRule (s.reg oSramCfg) (errCount (s.marks s.res.sramErrs a.bank (s.f oSramCfg 15 0)) a.bank) = true)) →
    Leads (.sramBankRetire e) s (fun t => t.res.sram = setNth s.res.sram i (some r) ∧ t.res.sramOut = s.res.sramOut ++ [a.bank] ∧
      t.res.sramCopy = s.res.sramCopy ++ [i] ∧ t.b oSramStat 1 = true ∧ t.f oSramStat 15 8 = a.bank ∧ t.b oSramStat 2 = s.res.sram.contains none ∧
      t.f oFaultLog 63 32 = (if e = .failedAgain a then next32 (s.f oFaultLog 63 32) else next32 (next32 (s.f oFaultLog 63 32))) ∧
      t.queues = s.queues)) ∧
  (∀ (s : State) (a : SramAddr), Ready s → s.res.refilled.contains a = false → exec (.sramBankRetire (.failedAgain a)) s = .next s) ∧
  ∀ s : State, Ready s → exec .sramBankCopyDone s = .next { s with res := { s.res with sramCopy := s.res.sramCopy.tail } }) ∧
  (∀ (s : State) (v : Nat), Ready s → s.fab.loading.contains v = true →
    (s.draining v = false → Leads (.variantReloadDone v) s (fun t => t.fab.loading = s.fab.loading.filter (· != v) ∧ t.fab.resident = s.fab.resident ∧
      t.b oTvdStat 1 = !(s.fab.loading.filter (· != v)).isEmpty ∧ RegsBut [oTvdStat] s t ∧ t.mem = s.mem ∧ t.queues = s.queues ∧ t.jobs = s.jobs)) ∧
    (s.draining v = true → exec (.variantReloadDone v) s = .next s))

/-- An uncorrectable error of the sequencer's memory halts the engine (R356): issue stops, STAT reads HALTED, a detected fault of class 0x14 is
captured, and whatever command comes, only a reset ends the halt; until then no completion record is written, no tile issued, and DBG_SEQ.PC stands
still (R469). A corrected error is in the fault log alone (R355). -/
def Obligations.OnlyAResetEndsTheHalt : Prop :=
  (∀ s : State, s.wf = true → s.pin.phase ≠ 0 → s.pin.halted = false →
    Leads .sequencerHalt s (fun t => t.pin.halted = true ∧ t.issueStopped = true ∧ bit (t.regValue oStat) 63 = true ∧ t.b oFaultRecord 63 = true ∧
      (s.b oFaultRecord 63 = false → t.f oFaultRecord 55 48 = 0x14) ∧ t.jobs = s.jobs ∧ t.queues = s.queues ∧
      fld (t.regValue oDbgSeq) 15 0 = t.f oDbgSeq 15 0 ∧ t.f oDbgSeq 63 16 = s.f oDbgSeq 63 16 ∧
      RegsBut [oFaultRecord, oFaultBeat, oFaultWhere, oFaultLog, oDbgSeq] s t)) ∧
  (∀ (c : Instr) (s t : State), s.pin.halted = true → exec c s = .next t → t.pin.halted = true ∨ t.pin.phase = 0) ∧
  (∀ (c : Instr) (s t : State), engineWork c = true → s.pin.halted = true → exec c s = .next t → t = s) ∧
  ∀ s : State, s.wf = true → s.pin.phase ≠ 0 → s.pin.halted = false →
    Leads .sequencerCorrected s (fun t => t.f oFaultLog 63 32 = next32 (s.f oFaultLog 63 32) ∧ RegsBut [oFaultLog] s t ∧ t.queues = s.queues)

/-- While the block is halted (R462): RW and W1C fields and ST fields are written; CHECK, APPLY and LOAD, FAB_SWAP and MX_SWAP are ignored, and so is a
doorbell, which sets DB_ERR; the service group is served, and its RESET ends the halt. -/
def Obligations.AHaltedBlockServesItsPorts : Prop :=
  ∀ s : State, Open s → s.pin.phase = 6 → s.pin.halted = true →
    (∀ (o : Nat) (w : Word), o < 2 ^ 20 → o % 8 = 0 → plainRegister o = true →
      Leads (.registerWrite .hcp o w) s (fun t => OnlyLive (s.acked .hcp false) t ∧ RegsBut [o] s t ∧ ∀ i, i < 64 → bit (t.reg o) i =
        if bit (w1cMask o) i && bit w i then false else if bit (rwMask o) i then bit w i else bit (s.reg o) i)) ∧
    (∀ (o : Nat) (w : Word), o < 2 ^ 20 → o % 8 = 0 → isStaged o = true → s.stageState ≠ 4 →
      Leads (.registerWrite .hcp o w) s (fun t => ∀ p, t.stg p = if p = o then mergeSt o w (s.stg o) else s.stg p)) ∧
    (∀ (w : Word) (c : Instr), bit w 2 = false → (c = .check w ∨ c = .apply w ∨ c = .load w) →
      exec c s = .next (s.setF oStageCtl 7 6 (fld w 7 6))) ∧
    (∀ w : Word, exec (.fabSwap w) s = .next s ∧ exec (.mxSwap w) s = .next s) ∧
    (∀ (q : Queue) (w : Word), exec (.doorbell q w) s = .next (s.setB (oQStat (qIdx q)) 2 true)) ∧
    (∀ (port : RegPort) (w : Word), s.b oSvImgStat 0 = false →
      (s.pin.image.length < 2 ^ 17 → Leads (.svImgWr port w) s (fun t => t.pin.image = s.pin.image ++ [w])) ∧
      (bit w 2 = true → bit w 1 = false → bit w 0 = false → Leads (.imgClear port w) s (fun t => t.pin.image = [])) ∧
      (bit w 2 = false → bit w 1 = true → bit w 0 = false → fld w 63 56 = 0xA5 → ∀ x, checkImage s.imageBytes s.me = .inr x →
        Leads (.imgCommit port w) s (fun t => t.pin.imgBusy = true)) ∧
      (bit w 2 = false → bit w 1 = false → bit w 0 = true → fld w 63 56 = 0xA5 →
        Leads (.svReset port w) s (fun t => t.pin.phase = 0 ∧ t.pin.halted = false))) ∧
    ∀ port, Leads (.svMir0Read port) s (fun t => t.latchOf port = mirrorSources.map s.regValue)

/-- An Amber episode (R367 to R369, R444): the warning stops issue, is counted and logged; its end starts the hold, and the hold's end the verification,
or before READY the end; the verification of a write log without a failing tile ends the episode, and the log is empty. An accepted temperature
stands in TEMP_STAT with its maximum; at or above THERM_CRIT it sets CRIT and stops issue (R437, R439, R440). Without a valid code TEMP_INVALID sets
and the temperature is not current; the stop stays (R437). -/
def Obligations.SupplyAndTemperatureStopIssue : Prop :=
  ((∀ s : State, s.wf = true → 2 ≤ s.pin.phase → s.pin.halted = false → s.calm = true → s.res.amberPh = 0 →
    Leads .supplyWarnAssert s (fun t => t.pin.warn = true ∧ t.res.amberPh = 1 ∧ t.issueStopped = true ∧ t.b oAmberStat 1 = true ∧ t.b oAmberStat 0 = true ∧
      t.f oAmberStat 63 48 = min (s.f oAmberStat 63 48 + 1) 65535 ∧ t.f oAmberBeat 47 0 = s.beat ∧ t.f oAmberBeat 63 48 = 1 ∧
      t.f (oLife 3) 63 0 = min (s.f (oLife 3) 63 0 + 1) (2 ^ 64 - 1) ∧ t.f oFaultLog 63 32 = next32 (s.f oFaultLog 63 32) ∧
      RegsBut [oAmberStat, oAmberBeat, oLife 3, oFaultLog] s t ∧ t.jobs = s.jobs ∧ t.queues = s.queues)) ∧
  (∀ s : State, s.wf = true → s.pin.phase < 2 → exec .supplyWarnAssert s = .next { s with pin := { s.pin with warn := true } } ∧
    exec .supplyWarnClear s = .next { s with pin := { s.pin with warn := false } }) ∧
  (∀ s : State, s.wf = true → 2 ≤ s.pin.phase → s.pin.halted = false → s.calm = true → s.res.amberPh = 1 →
    exec .supplyWarnClear s = .next { s with pin := { s.pin with warn := false }, res := { s.res with amberPh := 2 } }) ∧
  (∀ s : State, Ready s → s.res.amberPh = 2 → exec .amberHoldExpire s = .next { s with res := { s.res with amberPh := 3 } }) ∧
  (∀ s : State, s.wf = true → 2 ≤ s.pin.phase → s.pin.phase < 6 → s.pin.halted = false → s.calm = true → s.res.amberPh = 2 →
    Leads .amberHoldExpire s (fun t => t.res.amberPh = 0 ∧ t.b oAmberStat 1 = false ∧ RegsBut [oAmberStat] s t ∧ t.mem = s.mem)) ∧
  ∀ s : State, Ready s → LinesGood s → s.res.amberPh = 3 →
    Leads (.amberVerifyDone []) s (fun t => t.res.amberPh = 0 ∧ t.res.amberLog = [] ∧ t.b oAmberStat 1 = false ∧ t.f oAmberStat 47 32 = 0 ∧
      t.f oAmberStat 31 16 = min 8192 (s.res.amberLog.foldl (fun n e => n + e.writes) 0) ∧ RegsBut [oAmberStat] s t ∧ t.mem = s.mem ∧
      t.queues = s.queues)) ∧
  ((∀ (s : State) (c : Nat), Open s → c < 1024 →
    Leads (.tempSample c) s (fun t => t.pin.temp = some c ∧ t.f oTempStat 9 0 = c ∧ t.f oTempStat 25 16 = max c (s.f oTempStat 25 16) ∧
      t.b oPwrStat 4 = decide (s.f oPwrCfg 57 48 ≤ c) ∧ t.b oPwrStat 2 = false ∧
      t.pin.hotStop = (decide (s.f oPwrCfg 57 48 ≤ c) || s.pin.hotStop) ∧ (s.f oPwrCfg 57 48 ≤ c → t.issueStopped = true ∧ t.b oPwrStat 1 = true) ∧
      RegsBut [oTempStat, oPwrStat] s t ∧ t.mem = s.mem ∧ t.jobs = s.jobs)) ∧
  (∀ (s : State) (c : Nat), Open s → 1024 ≤ c → exec (.tempSample c) s = .next s) ∧
  ∀ s : State, Open s → Leads .tempInvalid s (fun t => t.pin.temp = none ∧ t.b oPwrStat 2 = true ∧ t.b oPwrStat 4 = false ∧
    t.pin.hotStop = s.pin.hotStop ∧ RegsBut [oPwrStat] s t ∧ t.mem = s.mem ∧ t.jobs = s.jobs))

/-! Reset -/

/-- RST_N and SUPPLY_GOOD put the block in reset from any state: every register at its reset value, nothing in memory or in flight (R441); the sequence
then samples the straps into the registers that hold them and waits for the image in phase 2 (R442, R453, R461). A RESET with its key puts the block
in reset with every register at its reset value and nothing in memory or in flight, the sealed snapshots and the flash kept; while region 0 is being
programmed it waits (R394, R441). -/
def Obligations.ResetsStartTheSequence : Prop :=
  ((∀ (s : State) (c : Instr), s.wf = true → (c = .rstNAssert ∨ c = .supplyGoodFall) →
    Leads c s (fun t => t.pin.phase = 0 ∧ t.pin.halted = false ∧ t.pin.cause = (if c = .supplyGoodFall then 2 else 0) ∧ t.live = State.reset.live ∧
      t.staged = State.reset.staged ∧ t.mem = [] ∧ t.jobs = [] ∧ t.queues = State.reset.queues ∧ t.pending = s.pending ∧
      t.res.halves = s.res.halves.map (fun h => h.filter (·.sealed)))) ∧
  (∀ (s : State) (st : Straps), s.wf = true → s.pin.phase = 0 → s.pin.warn = false → s.pin.cause < 4 →
    Leads (.resetSequenceStart st) s (fun t => t.pin.phase = 2 ∧ t.f oResetStat 35 32 = 2 ∧ t.f oResetStat 63 60 = s.pin.cause ∧ t.pin.good = true ∧
      t.f oStat 39 32 = st.instId % 256 ∧ t.f oBeatSync 47 40 = st.instId % 256 ∧ t.f oCommitGroup 55 48 = st.instId % 256 ∧
      t.f oCommitGroup 39 32 = st.instId % 256 ∧ t.f oSnapCfg 3 0 = st.feedId % 16 ∧
      RegsBut [oStat, oCommitGroup, oBeatSync, oSnapCfg, oResetStat] s t ∧ t.mem = s.mem)) ∧
  ∀ (s : State) (st : Straps), s.pin.phase ≠ 0 → s.wf = true → exec (.resetSequenceStart st) s = .next s) ∧
  ((∀ (s : State) (port : RegPort) (w : Word), Open s → s.serviceShut port = false → s.b oSvImgStat 0 = false → bit w 2 = false →
    bit w 1 = false → bit w 0 = true → fld w 63 56 = 0xA5 →
    Leads (.svReset port w) s (fun t => t.pin.phase = 0 ∧ t.pin.cause = 1 ∧ t.live = State.reset.live ∧ t.staged = State.reset.staged ∧
      t.mem = [] ∧ t.jobs = [] ∧ t.queues = State.reset.queues ∧ t.pin.image = [] ∧ t.pending = s.pending ∧
      t.res.halves = s.res.halves.map (fun h => h.filter (·.sealed)))) ∧
  ∀ (s : State) (port : RegPort) (w : Word), Open s → s.serviceShut port = false → s.b oSvImgStat 0 = true → bit w 2 = false →
    bit w 1 = false → bit w 0 = true → fld w 63 56 = 0xA5 →
    exec (.svReset port w) s = .next { s with pin := { s.pin with rstHeld := true } })

/-- Phases 2 to 5 (R442, R446, R451): the image of region 0, read over the bridge, is applied, or ignored as a whole with its cause in RESET_STAT, and
phase 3 begins with a stack that reads as written but for the route table; a source that pushes is waited for. At the end of phase 3 every sub-port
has its credits; the flash is rebuilt from its newest checkpoint and the spare records after it or, without one, formatted; the fabric is set up and
the generators are seeded: READY. -/
def Obligations.TheResetSequenceEndsReady : Prop :=
  (∀ (s : State) (flash : ImageReads), s.wf = true → s.pin.phase = 2 → s.pin.halted = false → s.pin.straps.imageSrc = 0 →
    (∀ bs m, (s.imgLuns flash 8 0).2 = some bs → checkImage bs s.me = .inr m → Leads (.imagePhase flash) s (fun t => t.pin.phase = 3 ∧
      t.f oResetStat 35 32 = 3 ∧ t.f oResetStat 59 56 = 1 ∧ t.out.bridge = s.out.bridge ++ (s.imgLuns flash 8 0).1)) ∧
    (∀ code at_, ((∃ bs, (s.imgLuns flash 8 0).2 = some bs ∧ checkImage bs s.me = .inl (code, at_)) ∨
        ((s.imgLuns flash 8 0).2 = none ∧ code = 6 ∧ at_ = 255)) → code < 16 → at_ < 256 →
      Leads (.imagePhase flash) s (fun t => t.pin.phase = 3 ∧ t.f oResetStat 59 56 = code ∧ t.f oResetStat 55 48 = at_ ∧
        t.out.bridge = s.out.bridge ++ (s.imgLuns flash 8 0).1 ∧ RegsBut [oResetStat, oBeatSync, oPwrStat] s t ∧ t.staged = s.staged ∧ t.badLines = [] ∧
        ∀ a, t.byte a = if 0x3A000000 ≤ a ∧ a < 0x3A000100 then s.byte a else memDflt a))) ∧
  (∀ (s : State) (x : ImageReads), s.wf = true → s.pin.phase = 2 → s.pin.halted = false →
    (s.pin.straps.imageSrc = 3 → Leads (.imagePhase x) s (fun t => t.pin.phase = 3 ∧ t.f oResetStat 59 56 = s.f oResetStat 59 56 ∧
      t.out = s.out ∧ t.staged = s.staged)) ∧
    ((s.pin.straps.imageSrc = 1 ∨ s.pin.straps.imageSrc = 2) → exec (.imagePhase x) s = .next s)) ∧
  (∀ s : State, s.wf = true → s.pin.phase = 3 → s.bootHeld = false →
    Leads .stackInitDone s (fun t => t.pin.phase = (if s.channels = 0 ∨ s.b oTierStat 2 = true then 5 else 4) ∧ t.b oResetStat 1 = true ∧
      (∀ sub, sub < 32 → t.credits sub = (64, 128)) ∧ t.badLines = s.badLines ∧ RegsBut [oResetStat] s t ∧ t.mem = s.mem)) ∧
  (∀ (s : State) (r : Rebuild), s.wf = true → s.pin.phase = 4 → s.bootHeld = false → s.channels ≠ 0 → s.b oTierStat 2 = false →
    (r.commits = [] → Leads (.flashRebuildDone r) s (fun t => t.pin.phase = 5 ∧ t.b oTierStat 2 = true ∧ t.b oFlashStat 1 = true ∧
      (∀ k ∈ s.allBlocks, k ∈ r.marked → (t.block k).state = 3) ∧
      t.tier.units = s.tier.units ∧ t.res.halves = [none, none] ∧ t.mem = s.mem)) ∧
    (∀ n sect slot u a d, r.commits = [n] → r.slots = [⟨sect, slot, n, true, [(u, a, d)], []⟩] → r.pages = [] → physOf a ≠ 0xFFFFFFFF →
      Leads (.flashRebuildDone r) s (fun t => t.pin.phase = 5 ∧ t.b oTierStat 2 = true ∧ t.tier.ckpt = n ∧ t.unitAt u = some (physOf a) ∧
        (t.page (u / 128)).st = (if u / 128 < s.f oTierMap 22 0 then .flash else .zero) ∧ (t.page (u / 128)).digest = d ∧ t.mem = s.mem)) ∧
    (∀ n a sp, r.commits = [n] → r.slots = [] → r.pages = [(a, sp)] → sp.kind < 2 → physOf a ≠ 0xFFFFFFFF →
      (s.block (physOf a / 1024)).state = 0 →
      Leads (.flashRebuildDone r) s (fun t => t.tier.ckpt = n ∧ t.unitAt sp.unit = some (physOf a) ∧ (t.page (sp.unit / 128)).digest = sp.digest ∧
        t.tier.wseq = max r.wseq sp.wseq ∧ (t.block (physOf a / 1024)).cls = sp.kind ∧
        (t.block (physOf a / 1024)).next = max (s.block (physOf a / 1024)).next (a.page + 1) ∧ t.mem = s.mem))) ∧
  ∀ s : State, s.wf = true → s.pin.phase = 5 → s.pin.halted = false →
    Leads .fabricPhase s (fun t => t.pin.phase = 6 ∧ t.b oResetStat 2 = true ∧ bit (t.regValue oStat) 62 = true ∧ t.fab.genSeed = s.reg oFabSeed ∧
      t.pin.bootTvd = [] ∧ (s.pin.bootTvd = [] → t.fab.resident = s.fab.resident ∧ t.mem = s.mem))

/-! Queue commands -/

/-- A record at the head of its queue with another SEQ, an OPC that the queue does not accept, or a reserved bit set completes ABORTED with reason 1, 2
or 3 in DW0, whichever row of the queue comes, and nothing else is done; its completion record stands before DONE_SEQ names it (R420, R422 to R424). -/
def Obligations.BadRecordsEndAborted : Prop :=
  ∀ (s : State) (q : Queue) (c : Instr) (reason : Nat), Ready s → LinesGood s → NothingWaits s → s.queues.length = 4 → queueRow q c = true →
    s.run q = none → s.waiting q = true → s.posted q = s.nextSeq q →
    let bs := s.record q (s.nextSeq q)
    ((reason = 1 ∧ leAt bs 4 4 ≠ s.nextSeq q) ∨
      (reason = 2 ∧ leAt bs 4 4 = s.nextSeq q ∧ opcOk q (leAt bs 0 1) = false) ∨
      (reason = 3 ∧ leAt bs 4 4 = s.nextSeq q ∧ opcOk q (leAt bs 0 1) = true ∧ reservedSet s.fab.resident (leAt bs 0 1) bs = true)) →
    Leads c s (fun t => Done q (s.nextSeq q) t ∧ t.jobs = s.jobs ∧ (∀ p, p ≠ q → t.run p = s.run p) ∧
      RegsBut [oQDoneSeq (qIdx q), oCommitState] s t ∧
      (∀ a, ¬ (s.compAddr q (s.nextSeq q) ≤ a ∧ a < s.compAddr q (s.nextSeq q) + 32) → t.byte a = s.byte a) ∧
      t.bytes (s.compAddr q (s.nextSeq q)) 32 = compBytes (s.nextSeq q) (leAt bs 0 1) 0x2F (128 * s.phaseOf q (s.nextSeq q)) 0 s.beat
        (leAt bs 2 2) [0x80000000 + reason, if reason = 1 then leAt bs 4 4 else 0])

/-- UPDATE, UPDATE_SPARSE, COMMIT and DISCARD of another step than the one after the committed one end ABORTED (R73, R177). An UPDATE or UPDATE_SPARSE
whose checks pass runs with its argument block latched (R175), UPDATE_SPARSE with its valid index entries merged into runs (R180), and it waits
until its step has closed and its clip factor has come or its reduction has timed out (R19, R276). A MATRIX whose program is resident, with rows in
service, of the step that its KIND asks for, on homes that pass, runs with its argument block latched and its extents reserved (R204 to R206); a
program that is not resident ends it REFUSED_FABRIC, and another step ABORTED. -/
def Obligations.SweepsAreTakenUp : Prop :=
  ((∀ (s : State) (c : Instr) (opc : Nat), Ready s → LinesGood s → Fresh s .uq opc →
    ((c = .update ∧ opc = 0x30) ∨ (c = .updateSparse ∧ opc = 0x31) ∨ (c = .commit ∧ opc = 0x33) ∨ (c = .discard ∧ opc = 0x34)) →
    (s.newest .uq).fld 8 4 ≠ (s.stepNow + 1) % 2 ^ 32 → Leads c s (Ended s .uq (s.newest .uq) 0x2F [])) ∧
  (∀ s u : State, Ready s → LinesGood s → Fresh s .uq 0x30 →
    let r := s.newest .uq
    let ds := (List.range (r.fld 14 2 + 1 - r.fld 12 2)).map (r.fld 12 2 + ·)
    r.fld 8 4 = (s.stepNow + 1) % 2 ^ 32 → ds.any s.step.written.contains = false → (s.taken .uq).firstBad ds = none →
    (s.taken .uq).sweepBuffers r ds = some u → s.pagesOf [(r.fld 16 6, 128)] = [] →
    exec .update s = .next (s.kept (u.setRun .uq (some { r with args := s.argBlock (r.fld 16 6), step := r.fld 8 4, desc := r.fld 12 2 })))) ∧
  (∀ s u : State, Ready s → LinesGood s → Fresh s .uq 0x31 →
    let r := s.newest .uq
    let es := s.idxEntries (r.fld 32 6) (r.fld 28 4) (s.desc (r.fld 12 2)).rows
    r.fld 8 4 = (s.stepNow + 1) % 2 ^ 32 → s.step.written.contains (r.fld 12 2) = false → (s.taken .uq).descCheck (r.fld 12 2) = 0 →
    (s.desc (r.fld 12 2)).order = false → (s.desc (r.fld 12 2)).stamped = true → pitchOk (s.desc (r.fld 12 2)).pitch = true → r.fld 28 4 ≤ 16777216 →
    (s.taken .uq).sweepBuffers r [r.fld 12 2] ≠ none →
    ((s.taken .uq).passRing (svc 104) (cdiv (r.fld 28 4) 262144)).sweepBuffers r [r.fld 12 2] = some u →
    s.pagesOf [(r.fld 16 6, 128)] = [] → s.pagesOf [(r.fld 32 6, 8 * r.fld 28 4)] = [] →
    exec .updateSparse s = .next (s.kept (u.setRun .uq (some { r with
      args := s.argBlock (r.fld 16 6), step := r.fld 8 4, desc := r.fld 12 2, rows := touchedRuns (es.filterMap id),
      t := { r.t with drops := (es.filter Option.isNone).length } })))) ∧
  ∀ (s : State) (r : Run) (c : Instr), Ready s → s.run .uq = some r → s.stepClosed r.step = false →
    ((c = .update ∧ r.opc = 0x30) ∨ (c = .updateSparse ∧ r.opc = 0x31)) → exec c s = .next s) ∧
  (∀ s : State, Ready s → LinesGood s → Fresh s .uq 0x32 → s.fab.mxHeld = none →
    let r := s.newest .uq
    (s.fab.resident.prog? (r.fld 12 1) = none → Leads .matrix s (Ended s .uq r 0x15 [])) ∧
    ∀ m, s.fab.resident.prog? (r.fld 12 1) = some m → s.f oMxStat 23 12 ≠ 0 →
      (r.fld 8 4 ≠ (if m.kind = 5 then 0 else (s.stepNow + 1) % 2 ^ 32) → Leads .matrix s (Ended s .uq r 0x2F [])) ∧
      ∀ d u, r.fld 8 4 = (if m.kind = 5 then 0 else (s.stepNow + 1) % 2 ^ 32) →
        (s.taken .uq).mxLayout r m = (d, 0) →
        (s.taken .uq).reserve m.program r.seq true (if m.kind = 5 || (s.fab.resident.mxOutRole m.program).isSome then []
          else r.homes.map (fun h => (mxOutKey m r h, packedBytes m.outFmt (s.desc (mxOutKey m r h)).positions))) = some u →
        s.pagesOf [(r.fld 24 6, 128)] = [] →
        exec .matrix s = .next (s.kept (u.setRun .uq (some { r with args := s.argBlock (r.fld 24 6), step := r.fld 8 4, desc := r.fld 14 2 }))))

/-- A sweep of a closed step whose tiles are all done completes with its result and counts (R178, R180); a MATRIX does the same (R222), also of a step
that has not closed when its program does not read the accumulators. A sweep whose reduction has timed out without ARG0_HOST ends FAULT_PEER_LOST
(R276). -/
def Obligations.SweepsComplete : Prop :=
  ((∀ (s : State) (r : Run) (c : Instr), Ready s → LinesGood s → Spent s .uq r → s.stepClosed r.step = true →
    ((s.kappa r.step).isSome = true ∨ r.fld 24 1 % 2 = 1) →
    ((c = .update ∧ r.opc = 0x30) → Leads c s (Ended s .uq r r.t.result [r.t.tiles, r.t.replayed, r.t.held, r.t.descs])) ∧
    ((c = .updateSparse ∧ r.opc = 0x31) → Leads c s (Ended s .uq r r.t.result
      [runRows r.rows, r.t.extra, r.t.extra2, sat16 r.t.drops * 65536 + sat16 r.t.replayed]))) ∧
  ∀ (s : State) (r : Run) (m : MxProg), Ready s → LinesGood s → Spent s .uq r → r.opc = 0x32 → s.fab.mxHeld = none →
    s.fab.resident.prog? (r.fld 12 1) = some m → (s.fab.resident.mxReadsAcc m.program = false ∨ m.kind = 5 ∨ s.stepClosed r.step = true) →
    Leads .matrix s (Ended s .uq r r.t.result [r.t.tiles, r.t.replayed, r.t.held, r.t.descs])) ∧
  (∀ (s : State) (r : Run) (c : Instr), Ready s → LinesGood s → Last s .uq r → s.stepClosed r.step = true → (s.kappa r.step).isSome = false →
    r.fld 24 1 % 2 = 0 → ((c = .update ∧ r.opc = 0x30) ∨ (c = .updateSparse ∧ r.opc = 0x31)) → Leads c s (Ended s .uq r 0x22 []))

/-- GATHER, folds, CLOSE_STEP and SLATE_UPDATE whose checks pass run, and nothing else has changed (R194, R258, R266, R269, R307); a fold tagged with a
step that has not opened and a CLOSE_STEP of another step than the open one end ABORTED, and a fold two steps or more behind is dropped as STALE and
counted (R258). -/
def Obligations.GathersAndFoldsAreTakenUp : Prop :=
  (∀ (s : State) (f : Fmt), Ready s → LinesGood s → Fresh s .gq 0x10 →
    let r := s.newest .gq
    r.fld 8 4 = 0 → convOk r.gfmt r.gblk = true → fmtOf r.gfmt = some f →
    (∀ i, i < r.gatherLast + 1 - r.gatherFirst → (s.taken .gq).gatherCheck r (r.gatherFirst + i) = 0) →
    (s.taken .gq).gatherDstOk (r.fld 24 6) ((s.taken .gq).gatherBytes r f) = true →
    exec .gather s = .next (s.setRun .gq (some { r with desc := r.gatherFirst, phase := r.fld 24 6 }))) ∧
  (∀ (s : State) (f : Fmt), Ready s → LinesGood s → Fresh s .gq 0x11 →
    let r := s.newest .gq
    let es := s.idxEntries (r.fld 40 6) (r.fld 32 4) (s.desc r.gatherFirst).rows
    let r' := { r with rows := touchedRuns (es.filterMap id), t := { r.t with drops := (es.filter Option.isNone).length } }
    r.fld 8 4 = 0 → convOk r.gfmt r.gblk = true → fmtOf r.gfmt = some f → (s.taken .gq).gatherCheck r r.gatherFirst = 0 → r.fld 32 4 ≤ 16777216 →
    s.pagesOf [(r.fld 40 6, 8 * r.fld 32 4)] = [] → (s.taken .gq).gatherDstOk (r.fld 24 6) ((s.taken .gq).gatherBytes r' f) = true →
    exec .gatherSparse s = .next ((s.passRing (svc 104) (cdiv (r.fld 32 4) 262144)).setRun .gq (some { r' with
      desc := r.gatherFirst, phase := r.fld 24 6 }))) ∧
  (∀ s : State, Ready s → LinesGood s → Fresh s .aq 0x20 →
    let r := s.newest .aq
    let o := s.grad.openStep
    (o < r.tagStep → Leads .fold s (Ended s .aq r 0x2F [])) ∧
    (r.foldDescs.find? (fun d => (s.taken .aq).foldCheck false d != 0) = none →
      (s.taken .aq).landingOk (r.fld 24 6) ((s.taken .aq).landingBytes r.foldDescs) = true →
      (r.tagStep + 1 < o → Leads .fold s (fun t => Ended s .aq r 0x01 [0, 0, sat16 r.foldDescs.length * 65536 + 256, 0] t ∧
        t.f oGradDrops 63 48 = min (s.f oGradDrops 63 48 + 1) 65535 ∧ t.grad = s.grad)) ∧
      (r.tagStep = o → (s.foldLog o).length < 65536 →
        (s.foldLog o).any (fun e => e.mbatch = r.fld 12 2 && e.contrib = r.fld 14 2 && e.first ≤ r.foldLast && r.foldFirst ≤ e.last) = false →
        exec .fold s = .next (s.setRun .aq (some { r with step := o, desc := r.foldFirst, phase := r.fld 24 6, t := { r.t with late := false } }))))) ∧
  (∀ s : State, Ready s → LinesGood s → Fresh s .aq 0x21 →
    let r := s.newest .aq
    let o := s.grad.openStep
    let list := r.fld 40 6
    let count := r.fld 32 4
    let rows := ((wordsFrom (s.ext list (8 * count)) 0 count).map (fun w => fld w 47 32 + 1)).foldl (· + ·) 0
    r.foldDescs.find? (fun d => (s.taken .aq).foldCheck true d != 0) = none → count ≤ 16777216 → r.tagStep = o → (s.foldLog o).length < 65536 →
    (s.foldLog o).any (fun e => e.mbatch = r.fld 12 2 && e.contrib = r.fld 14 2 && e.first ≤ r.foldLast && r.foldFirst ≤ e.last) = false →
    s.pagesOf [(list, 8 * count)] = [] → (s.taken .aq).landingOk (r.fld 24 6) (2 * (s.desc r.foldFirst).pitch * rows) = true →
    Leads .foldSparse s (fun t => ∃ r', t = (s.passRing (svc 104) (cdiv count 262144)).setRun .aq (some r') ∧ r'.seq = r.seq ∧ r'.opc = 0x21 ∧ r'.step = o ∧
      r'.desc = r.foldFirst ∧ r'.phase = r.fld 24 6 ∧
      r'.rows = touchedRuns ((s.idxEntries list count (s.desc r.foldFirst).rows).filterMap id) ∧
      r'.t.drops = ((s.idxEntries list count (s.desc r.foldFirst).rows).filter Option.isNone).length)) ∧
  (∀ s : State, Ready s → LinesGood s → Fresh s .aq 0x22 →
    let r := s.newest .aq
    if r.fld 8 4 = s.grad.openStep then exec .closeStep s = .next (s.setRun .aq (some { r with step := r.fld 8 4 }))
    else Leads .closeStep s (Ended s .aq r 0x2F [])) ∧
  ∀ s : State, Ready s → LinesGood s → Fresh s .sq 0x47 →
    let r := s.newest .sq
    r.fld 12 1 ≤ 1 → (s.taken .sq).firstBad ((List.range (r.fld 10 2 + 1 - r.fld 8 2)).map (r.fld 8 2 + ·)) = none →
    exec .slateUpdate s = .next (s.setRun .sq (some { r with desc := r.fld 8 2 }))

/-- A GATHER, a fold or a CLOSE_STEP with everything done completes with its counts (R257, R265, R270, R300, R307); a CLOSE_STEP with LOCAL whose
descriptors have no normalised sum leaves the clip factor of a sum of 0 for its step (R274, R275). -/
def Obligations.GathersFoldsAndClosesComplete : Prop :=
  (∀ (s : State) (r : Run) (c : Instr), Ready s → LinesGood s → Spent s .gq r → (r.bound = true ∨ r.fld 8 4 = 0) →
    ((c = .gather ∧ r.opc = 0x10) ∨ (c = .gatherSparse ∧ r.opc = 0x11)) →
    Leads c s (Ended s .gq r r.t.convResult [r.t.tiles, r.t.replayed, r.t.drops, r.step])) ∧
  ∀ (s : State) (r : Run), Ready s → LinesGood s → Spent s .aq r → r.t.poison = false → r.t.timeout = false → r.t.check = false → r.t.drops = 0 →
    r.t.extra2 = 0 → r.t.late = false → r.t.recovered = false →
    (r.opc = 0x20 → Leads .fold s (Ended s .aq r 0x00 [r.t.tiles, r.t.descs, min r.t.replayed 255, r.gated])) ∧
    (r.opc = 0x21 → r.t.descs ≠ 0 →
      Leads .foldSparse s (Ended s .aq r 0x00 [runRows (minusRuns r.rows r.copy), r.landCount, min r.t.replayed 255, r.gated])) ∧
    (r.opc = 0x22 → r.phase = 1 → r.info = [] → (r.fld 20 1).testBit 0 = true →
      Leads .closeStep s (fun t => Ended s .aq r 0x00 [r.t.descs, 0, r.t.tiles, r.gated] t ∧ t.kappa r.step = some (s.clipFactor kxZero).1 ∧
        (s.f oNormStat 63 32 = r.step → t.f oNormStat 31 28 = 3)))

/-- RESHARD of the resident map binds the round: the map, the committed step and the banks of its entries, and opens it at the build buffer and at every
receiver; it joins the round that a message has opened there, unless its own commands of that round have run (R296 to R299). Of another map it ends
ABORTED. EMIT_CYAN, after a RESHARD of the map that is live, goes on with the round and its receivers, but for those that were detached in between,
whose catch-ups follow it (R296, R299, R303). -/
def Obligations.RoundsAreTakenUp : Prop :=
  (∀ (s : State) (c : Instr) (opc : Nat), Ready s → LinesGood s → Fresh s .sq opc → ((c = .reshard ∧ opc = 0x40) ∨ (c = .emitCyan ∧ opc = 0x41)) →
    (s.mapResident = 0 ∨ (s.newest .sq).fld 8 2 ≠ s.mapResident ∨ (opc = 0x41 ∧ s.cyanBuild ≠ s.serving ∧
      (s.cyan.reshardOk = false ∨ s.cyan.boundMap ≠ s.liveMap))) →
    Leads c s (Ended s .sq (s.newest .sq) 0x2F [])) ∧
  (∀ s : State, Ready s → LinesGood s → Fresh s .sq 0x40 →
    let r := s.newest .sq
    s.mapResident ≠ 0 → r.fld 8 2 = s.mapResident → s.cyanSize ≠ 0 → s.cyanBuild ≠ s.serving →
    Leads .reshard s (fun t => t.cyan.bound.map (fun x => (x.1, x.2.1)) = some (s.stepNow, s.cyanBuild) ∧ t.cyan.boundMap = s.liveMap ∧ t.cyanState s.cyanBuild = 1 ∧
      (t.cyanBuf s.cyanBuild).ran = true ∧ (t.cyanBuf s.cyanBuild).localDone = false ∧
      (s.lastRound s.cyanBuild s.mapResident s.stepNow = true → (s.cyanBuf s.cyanBuild).ran = false →
        (t.cyanBuf s.cyanBuild).srcs = (s.cyanBuf s.cyanBuild).srcs) ∧
      (s.lastRound s.cyanBuild s.mapResident s.stepNow = false ∨ (s.cyanBuf s.cyanBuild).ran = true →
        (t.cyanBuf s.cyanBuild).srcs = expectedFrom s.liveMap s.me) ∧
      t.run .sq = some { r with step := s.stepNow, bound := true } ∧ t.cyan.reshardOk = false ∧
      (∀ x ∈ t.cyan.receivers, .roundOpen x.inst s.mapResident s.stepNow ∈ t.out.peer ∧ x.attached = true ∧ x.opened = false) ∧
      RegsBut [oCyan s.cyanBuild] s t ∧ t.mem = s.mem)) ∧
  ∀ (s : State) (n : Nat) (b : Bool) (bs : List (Nat × Nat)), Ready s → LinesGood s → Fresh s .sq 0x41 →
    let r := s.newest .sq
    s.mapResident ≠ 0 → r.fld 8 2 = s.mapResident → s.cyanSize ≠ 0 → s.cyanBuild ≠ s.serving → s.cyan.reshardOk = true →
    s.cyan.boundMap = s.liveMap → s.cyan.bound = some (n, b, bs) →
    exec .emitCyan s = .next ((({ s with cyan := { s.cyan with
      receivers := s.cyan.receivers.map (fun x => { x with attached := !x.out, charges := 0 }) } } : State).adoptCatchups r).setRun .sq (some { r with
        step := n, bound := true, t := { r.t with extra2 := (s.cyan.receivers.filter (·.out)).length } }))

/-- RESHARD and EMIT_CYAN with everything issued, nothing in flight and every slot of the send ring acknowledged complete with their counts (R297,
R300). RESHARD keeps the round bound and allows an EMIT_CYAN; EMIT_CYAN releases the round, and the build buffer that still has this round is
COMPLETE when all expected bytes have come (R283, R298). -/
def Obligations.RoundsComplete : Prop :=
  ∀ (s : State) (r : Run), Ready s → LinesGood s → Spent s .sq r → r.rows = [] → (∀ e ∈ s.cyan.ring, e.entry = openEntry ∨ e.waiting = []) →
    let dw := [r.t.tiles, r.t.extra, sat16 r.t.extra2 * 65536 + sat16 r.t.replayed, r.step]
    (r.opc = 0x40 → Leads .reshard s (fun t => Ended s .sq r ({ r.t with drops := r.t.extra2 } : Tally).convResult dw t ∧
      t.cyan.reshardOk = true ∧ t.cyan.bound = s.cyan.bound ∧ t.cyan.receivers = s.cyan.receivers)) ∧
    (∀ b n bs, r.opc = 0x41 → s.cyan.bound = some (n, b, bs) →
      Leads .emitCyan s (fun t => Ended s .sq r ({ r.t with drops := r.t.extra2 } : Tally).convResult dw t ∧
        t.cyan.bound = none ∧ t.cyan.receivers = [] ∧ t.cyan.reshardOk = false ∧
        (s.lastRound b (mapId s.cyan.boundMap) n = true → (t.cyanBuf b).localDone = true ∧
          (s.cyanState b = 1 → (s.cyanBuf b).srcs.all (fun x => x.expected ≤ x.received) = true → t.cyanState b = 2))))

/-- A new SNAPSHOT that fits opens the half of the own store that does not hold the newest sealed snapshot (R372), and binds at once when its step is
the committed one; without a store, or MIRROR without a partner, it ends REFUSED_LAYOUT. A SNAPSHOT with SEAL, without MIRROR, that has copied
everything completes OK with its counts: its half is the newest sealed snapshot, with the tiles and records it holds, and the one before it stands
in SNAP_PREV (R374, R376). Stated for a block without flash channels. -/
def Obligations.SnapshotsAreTakenUpAndSealed : Prop :=
  (∀ s : State, Ready s → LinesGood s → Fresh s .sq 0x42 →
    let r := s.newest .sq
    let ds := (List.range (r.fld 14 2 + 1 - r.fld 12 2)).map (r.fld 12 2 + ·)
    (r.fld 20 1).testBit 3 = true → s.stepNow ≤ r.fld 8 4 → r.fld 16 4 ≠ 0 →
    ((s.f oSnapCfg 47 32 = 0 ∨ (r.fld 20 1 % 2 = 1 ∧ s.partner = none)) → Leads .snapshot s (Ended s .sq r 0x16 [])) ∧
    (s.f oSnapCfg 47 32 ≠ 0 → (r.fld 20 1 % 2 = 1 → s.partner ≠ none) → (s.taken .sq).firstBad ds = none →
      (s.taken .sq).partLen ds ((r.fld 20 1).testBit 1) ≤ s.f oSnapCfg 47 32 * 2 ^ 29 → s.res.halves.length = 2 →
      Leads .snapshot s (fun t => t.f oSnapOpen 63 32 = r.fld 16 4 ∧ t.f oSnapOpen 6 4 = 0 ∧ t.f oSnapOpen 31 7 = s.f oSnapOpen 31 7 ∧
        t.f oSnapOpen 3 0 = s.f oSnapOpen 3 0 ∧ t.reg oSnapPrev = 0#64 ∧
        (s.stepNow < r.fld 8 4 → t.run .sq = some { r with desc := r.fld 12 2 }) ∧
        (r.fld 8 4 = s.stepNow → t.run .sq = some { r with
          desc := r.fld 12 2, bound := true, step := s.stepNow, banks := ds.map (fun d => (d, (s.desc d).role)) }) ∧
        (∃ rs, t.res.halves.contains (some ⟨r.fld 16 4, r.fld 8 4, false, false, rs, [], 0, 0⟩) = true ∧
          rs.map (·.desc) = if r.fld 8 4 = s.stepNow then ds else []) ∧
        (∀ x, s.newestSeal true = some x → t.newestSeal true = some x) ∧
        RegsBut [oSnapOpen, oSnapPrev] s t ∧ t.mem = s.mem))) ∧
  (∀ (s : State) (r : Run) (h : Nat) (x : Snap), Ready s → LinesGood s → Spent s .sq r → r.opc = 0x42 → r.bound = true → s.channels = 0 →
    (r.fld 20 1).testBit 0 = false → (r.fld 20 1).testBit 4 = true → s.halfOf true false (r.fld 16 4) = some (h, x) →
    r.t.poison = false → r.t.timeout = false → r.t.check = false → r.t.recovered = false →
    Leads .snapshot s (fun t => Ended s .sq r 0x00 [r.t.tiles, r.t.extra, r.t.drops, r.gated] t ∧ t.f oSnapStat 31 0 = x.id ∧ t.f oSnapOpen 63 32 = 0 ∧
      t.reg oSnapPrev = s.reg oSnapStat ∧ ∃ y, t.newestSeal true = some (h, y) ∧ y.id = x.id ∧ y.sealed = true ∧ y.tiles = x.tiles ∧ y.records = x.records))

/-- A RESTORE from the own store, of a sealed snapshot that it may name and whose records fit the targets, runs and asks the partner, if there is one,
for its tables (R380, R381); with FROM_PARTNER it asks the partner for the records of the snapshot, and without a partner it is refused. One that
comes while a COMMIT is under way or that names no such snapshot ends ABORTED or REFUSED_LAYOUT (R380). A RESTORE whose tiles have all been written
waits for its local flip at the next boundary, which inverts the role of the target, records its step, and completes the command (R382). Stated for
one descriptor. -/
def Obligations.RestoresRunAndFlip : Prop :=
  (∀ s : State, Ready s → LinesGood s → Fresh s .sq 0x43 →
    let r := s.newest .sq
    (s.commitPhase ≠ 0 → Leads .restore s (Ended s .sq r 0x2F [])) ∧
    (s.commitPhase = 0 → s.run .uq = none → (r.restPairs.map (·.2)).any s.step.written.contains = false →
      (s.taken .sq).firstBad (r.restPairs.map (·.2)) = none →
      (r.fromPartner = true → s.partner = none → Leads .restore s (Ended s .sq r 0x16 [])) ∧
      (∀ p, r.fromPartner = true → s.partner = some p →
        Leads .restore s (fun t => t.run .sq = some { r with desc := r.fld 12 2 } ∧ (∃ y, t.res.restore = some y ∧ y.src = p ∧ y.tables = none ∧ y.waited = false) ∧
          t.out.peer = s.out.peer ++ [.recordReq p (r.fld 8 4) (r.fld 12 2) (r.fld 14 2)] ∧ t.live = s.live ∧ t.mem = s.mem)) ∧
      (r.fromPartner = false → s.namedSnap (r.fld 8 4) = none → Leads .restore s (Ended s .sq r 0x16 [])) ∧
      ∀ x, r.fromPartner = false → s.namedSnap (r.fld 8 4) = some x → (s.taken .sq).restBad r x.records = false →
        Leads .restore s (fun t => t.run .sq = some { r with desc := r.fld 12 2, step := x.step } ∧
          (∃ y, t.res.restore = some y ∧ y.snapId = x.id ∧ y.first = r.fld 12 2 ∧ y.last = r.fld 14 2 ∧ y.target = r.fld 16 2 ∧ y.tables = none ∧
            y.waited = s.partner.isNone) ∧
          t.out.peer = s.out.peer ++ (s.partner.toList.map (fun p => .digestReq p x.id (r.fld 12 2) (r.fld 14 2))) ∧ t.live = s.live ∧ t.mem = s.mem))) ∧
  ((∀ (s : State) (r : Run) (x : RestoreSt), Ready s → LinesGood s → Spent s .sq r → r.opc = 0x43 → r.phase ≠ 2 → s.res.restore = some x →
    (x.tables.isSome = true ∨ x.waited = true) → r.fld 14 2 < r.desc →
    exec .restore s = .next (s.setRun .sq (some { r with phase := 2, info := [s.beat, nth 0 r.info 1] }))) ∧
  ∀ (s : State) (r : Run) (x : RestoreSt) (ns : Int) (y : Snap) (d tgt : Nat) (e : SnapRecord), Ready s → LinesGood s → Last s .sq r → r.opc = 0x43 →
    r.phase = 2 → nth 0 r.info 0 ≤ s.beat → s.beat + 1 < 2 ^ 48 → s.commit.decided = none → s.res.restore = some x → x.failed = [] →
    r.fromPartner = false → s.namedSnap x.snapId = some y → r.restPairs = [(d, tgt)] → tgt < 65536 → y.records.find? (·.desc == d) = some e →
    Leads (.beatBoundary ns) s (fun t => Done .sq r.seq t ∧ t.beat = s.beat + 1 ∧ (t.desc tgt).role = 1 - (s.desc tgt).role ∧
      t.num (64 * tgt + 56) 4 = fld (nth 0#64 (wordsFrom e.words 0 8) 7) 31 0 ∧ ∀ k, k < 65536 → k ≠ tgt → (t.desc k).role = (s.desc k).role))

/-- A stash command whose layer, blocks and host side pass runs with its layer latched (R316, R317); with no region, with a block count of 0, or for a
GET with an absent block it is refused (R316, R317, R493). A stash command or a SLATE_UPDATE with everything done completes with its counts (R195,
R320). -/
def Obligations.StashCommandsRun : Prop :=
  (∀ (s : State) (c : Instr) (opc : Nat), Ready s → LinesGood s → Fresh s .sq opc → ((c = .stashPut ∧ opc = 0x44) ∨ (c = .stashGet ∧ opc = 0x45)) →
    let r := s.newest .sq
    let l := s.stashLayer r
    let toks := r.stashBlocks.map ((s.taken .sq).stashTokens r)
    (opc = 0x44 → s.stashRegion.2 = 0 ∨ r.fld 12 2 = 0 → Leads c s (Ended s .sq r 0x16 [])) ∧
    (s.stashRegion.2 ≠ 0 → r.fld 8 2 ≤ 255 → 0 < r.fld 12 2 → r.fld 12 2 ≤ 2048 → r.fld 10 2 + r.fld 12 2 ≤ 2048 → r.fld 16 2 ≤ 2048 → l.ok = true →
      (opc = 0x44 → l.slotMax ((r.fld 14 1).testBit 0) ≤ l.stride) →
      (∀ b ∈ r.stashBlocks, s.stashRegion.1 ≤ l.slot b ∧ l.slot b + l.slotMax ((s.taken .sq).stashLossy r b) ≤ s.stashRegion.1 + s.stashRegion.2) →
      (hostBlocks (r.fld 24 6) (toks.map (fun t => 2 * t * l.dim))).all (fun x => (s.taken .sq).hostSideOk x.1 x.2) = true →
      (l.heads ≠ 0 → (hostBlocks (r.fld 32 6) (toks.map (fun t => 8 * t * l.heads))).all (fun x => (s.taken .sq).hostSideOk x.1 x.2) = true) →
      (opc = 0x45 → ∀ b ∈ r.stashBlocks, 2 ^ 63 ≤ s.num (indexAddr (r.fld 8 2) b) 8) →
      Leads c s (fun t => ∃ r', t = s.setRun .sq (some r') ∧ r'.seq = r.seq ∧ r'.opc = opc ∧ r'.desc = r.fld 10 2 ∧ r'.tile = 0 ∧
        r'.latched = some (wordsFrom (s.bytes (layerAddr (r.fld 8 2)) 32) 0 4)))) ∧
  ((∀ (s : State) (r : Run) (c : Instr), Ready s → LinesGood s → Spent s .sq r → ((c = .stashPut ∧ r.opc = 0x44) ∨ (c = .stashGet ∧ r.opc = 0x45)) →
    Leads c s (Ended s .sq r r.t.convResult [r.t.descs, r.t.extra, r.t.extra2, r.t.replayed])) ∧
  ∀ (s : State) (r : Run), Ready s → LinesGood s → Spent s .sq r → r.opc = 0x47 →
    Leads .slateUpdate s (Ended s .sq r r.t.convResult [r.step, r.t.tiles, r.t.extra]))

/-- A COMMIT is taken up PREPARING with its exclusions (R72, R73). Prepared, with every write of its step in the stack and the instance locked, it votes
up the tree: HOLD for held descriptors of its set, NO with its reason after a failure that forbids the commit, else YES (R74); which failures do is
the model's free choice (assumption log 28). The coordinator of a group of one, with nothing held and nothing failed, decides with its own vote: the
flip falls T_sync beats ahead, and COMMIT_PEND and COMMIT_STATE say so (R75, R78). DISCARD voids the step (R80, R81): its set, holds and decision
are gone, HELD_STAT reads 0, the detail counts the accumulator tiles that a later fold overwrote, and no role and no committed step changes. -/
def Obligations.CommitPreparesVotesOrIsDiscarded : Prop :=
  ((∀ s : State, Ready s → LinesGood s → Fresh s .uq 0x33 →
    let r := s.newest .uq
    r.fld 8 4 = (s.stepNow + 1) % 2 ^ 32 → r.fld 14 2 ≤ 4096 → (r.fld 12 1).testBit 1 = false → s.commitPhase ≠ 4 →
    Leads .commit s (fun t => t.run .uq = some { r with step := r.fld 8 4 } ∧ t.commitPhase = 1 ∧ RegsBut [oCommitState] s t ∧ t.mem = s.mem ∧
      t.step.exclude = (if (r.fld 12 1).testBit 0 then (s.step.held.map (·.desc)).eraseDups else []))) ∧
  (∀ (s : State) (r : Run) (p : Nat), Ready s → LinesGood s → s.queues.length = 4 → s.run .uq = some r → r.opc = 0x33 → r.phase = 0 → s.writesOut = false →
    s.commit.decided = none → s.b oBeatSync 31 = true → s.isCoord = false → s.normParent = some p →
    let held := (s.step.held.filter (fun h => s.step.set.contains h.desc && !s.step.exclude.contains h.desc)).length
    let no := held = 0 ∧ s.step.failed ≠ 0 ∧ Config.forbidsCommit s.step.failed = true
    Leads .commit s (fun t => t.commitPhase = 2 ∧ t.commit.lastVote = some s.beat ∧ t.mem = s.mem ∧ RegsBut [oCommitState] s t ∧
      t.out.peer = s.out.peer ++ [.vote p s.me r.step s.beat (if held ≠ 0 then .hold else if no then .no else .yes) held (if no then s.step.failed else 0)])) ∧
  ∀ (s : State) (r : Run), Ready s → s.run .uq = some r → r.opc = 0x33 →
    (s.writesOut = true ∨ 2 ≤ r.phase ∨ (s.b oBeatSync 31 = false ∧ s.commit.decided = none ∧ r.phase = 1)) → exec .commit s = .next s) ∧
  (∀ (s : State) (r : Run), Ready s → LinesGood s → s.queues.length = 4 → s.run .uq = some r → r.opc = 0x33 → r.phase = 0 → s.writesOut = false →
    s.commit.decided = none → s.b oBeatSync 31 = true → s.isCoord = true → s.members = [s.me] → s.groupSize = 1 → s.normKids = [] → s.commit.votes = [] →
    s.step.held = [] → s.step.failed = 0 → s.beat + tSync 1 < 2 ^ 48 →
    Leads .commit s (fun t => t.commit.decided = some (.commit, s.beat + tSync 1, 0, 0) ∧ t.commit.flipAt = s.beat + tSync 1 ∧ t.commitPhase = 3 ∧
      t.f oCommitPend 47 0 = s.beat + tSync 1 ∧ t.commit.lateFlip = false ∧ t.mem = s.mem ∧ RegsBut [oCommitState, oCommitPend] s t)) ∧
  (∀ s : State, Ready s → LinesGood s → Fresh s .uq 0x34 → (s.newest .uq).fld 8 4 = (s.stepNow + 1) % 2 ^ 32 →
    Leads .discard s (fun t => Ended s .uq (s.newest .uq) 0x00 [s.step.badTiles] t ∧ t.commitPhase = 0 ∧ t.stepNow = s.stepNow ∧ t.step.set = [] ∧ t.step.held = [] ∧
      t.step.written = [] ∧ t.reg oHeldStat = 0#64 ∧ t.commit.decided = none ∧ ∀ d, d < 65536 → (t.desc d).role = (s.desc d).role))

/-- A local BARRIER ends when the SEQ that it waits for is done, and waits until then; in its own queue it may wait only for a SEQ ahead of it, else it
ends ABORTED (R242). A group BARRIER sets its arrive flag (R243), and is released at the boundary when the flags of the whole group are set with its
identifier; VOTE_TIMEOUT beats after its flag was first sent it ends FAULT_PEER_LOST with the fault recorded (R243). FENCE ends when everything
posted to the other queues when it was taken up is done, and waits until then (R419). -/
def Obligations.BarriersAndFencesWait : Prop :=
  ((∀ (s : State) (q : Queue), Ready s → LinesGood s → Fresh s q 0x01 →
    let r := s.newest q
    let w := r.fld 12 1
    ((w = 0xFF ∨ (w < 4 ∧ w ≠ qIdx q ∧ s.seqDone (qOf w) (r.fld 8 4) = true) ∨
        (w = qIdx q ∧ 0 < sub32 r.seq (r.fld 8 4) ∧ sub32 r.seq (r.fld 8 4) < 2 ^ 31)) →
      (r.fld 13 1 % 2 = 0 → Leads (.barrier q) s (Ended s q r 0x00 [])) ∧
      (r.fld 13 1 % 2 = 1 → exec (.barrier q) s = .next (s.setRun q (some { r with phase := 1 })))) ∧
    (((4 ≤ w ∧ w ≠ 0xFF) ∨ (w = qIdx q ∧ ¬ (0 < sub32 r.seq (r.fld 8 4) ∧ sub32 r.seq (r.fld 8 4) < 2 ^ 31))) →
      Leads (.barrier q) s (Ended s q r 0x2F [])) ∧
    (w < 4 → w ≠ qIdx q → s.seqDone (qOf w) (r.fld 8 4) = false → exec (.barrier q) s = .next (s.taken q))) ∧
  (∀ (s : State) (q : Queue) (r : Run) (ns : Int), Ready s → LinesGood s → Last s q r → s.barriersDue = [q] →
    Leads (.beatBoundary ns) s (fun t => Done q r.seq t ∧ t.byte (s.compAddr q r.seq + 5) = 0#8)) ∧
  ∀ (s : State) (q : Queue) (r : Run), Ready s → LinesGood s → Last s q r → r.opc = 0x01 → r.phase = 1 →
    (r.info ≠ [] → r.info.headD 0 + s.voteTimeout ≤ s.beat →
      Leads (.groupBarrierTimeout q) s (fun t => Done q r.seq t ∧ t.b oFaultRecord 63 = true ∧
        (s.b oFaultRecord 63 = false → t.f oFaultRecord 55 48 = 0x09 ∧ t.f oFaultRecord 47 40 = 0x22) ∧
        t.f oFaultLog 63 32 = next32 (s.f oFaultLog 63 32) ∧ (∀ p, p ≠ q → t.run p = s.run p))) ∧
    (r.info = [] ∨ s.beat < r.info.headD 0 + s.voteTimeout → exec (.groupBarrierTimeout q) s = .next s)) ∧
  (∀ s : State, Ready s → LinesGood s → Fresh s .sq 0x4F →
    ((∀ q, q ≠ .sq → s.seqDone q (s.posted q) = true) → Leads .fence s (Ended s .sq (s.newest .sq) 0x00 [])) ∧
    ((∃ q, q ≠ .sq ∧ s.seqDone q (s.posted q) = false) → Leads .fence s (fun t => ∃ r, t = s.setRun .sq (some r) ∧ r.seq = s.nextSeq .sq ∧
      r.rows = [(0, s.posted .gq), (1, s.posted .aq), (2, s.posted .uq)])))

/-- A range of a TIER_HINT that is not within the tier ends REFUSED_LAYOUT (R335). DEMOTE, KEEP and RELEASE complete OK with the flags of every page of
the range changed and of no other (R336). -/
def Obligations.HintsFlagTheirPages : Prop :=
  ∀ (s : State) (c : Instr) (act : Nat), Ready s → LinesGood s → NothingWaits s → Fresh s .sq 0x46 → (s.newest .sq).fld 20 1 = act →
    ((c = .prefetch ∧ act = 0) ∨ (c = .demote ∧ act = 1) ∨ (c = .keep ∧ act = 2) ∨ (c = .release ∧ act = 3) ∨ (c = .clear ∧ act = 4) ∨ (c = .refetch ∧ act = 5)) →
    let r := s.newest .sq
    let a := r.fld 8 6
    let n := r.fld 16 4
    let ok := a % 2 ^ 21 = 0 ∧ 0 < n ∧ n ≤ 4194304 ∧ 0x10000000000 ≤ a ∧ a + n * 2 ^ 21 ≤ 0x10000000000 + s.f oTierMap 22 0 * 2 ^ 21
    let flagged := fun (f : Nat → Page → Page) => Leads c s (fun t => Done .sq r.seq t ∧ t.byte (s.compAddr .sq r.seq + 5) = 0#8 ∧
      ∀ i, t.page i = if i ∈ r.hintPages then f i (s.page i) else s.page i)
    (¬ ok → Leads c s (Ended s .sq r 0x16 [])) ∧
    (ok → act = 1 → flagged (fun i g => { g with demote := true, held := g.held || decide (g.st = .promoting) || s.pins i != 0 })) ∧
    (ok → act = 2 → (((s.tier.pages.filter (fun e => e.2.keep)).map (·.1) ++ r.hintPages).eraseDups).length ≤
        s.f oTierStat 63 47 - s.f oTierMap 48 32 - 2 * s.f oTierCfg 47 40 → flagged (fun _ g => { g with keep := true })) ∧
    (ok → act = 3 → flagged (fun _ g => { g with keep := false, demote := false, held := false }))

/-- CLEAR completes OK with every poisoned page of its range ZERO, without flash, and no other changed (R336, R349); REFETCH asks the partner again for
a poisoned page whose digest is known, and takes a free frame for it (R336); PREFETCH puts a page that is not held up for promotion, and a range
that is held is done at once (R336). -/
def Obligations.HintsMoveTheirPages : Prop :=
  ∀ s : State, Ready s → LinesGood s → NothingWaits s → Fresh s .sq 0x46 →
    let r := s.newest .sq
    let a := r.fld 8 6
    let n := r.fld 16 4
    let act := r.fld 20 1
    a % 2 ^ 21 = 0 → 0 < n → n ≤ 4194304 → 0x10000000000 ≤ a → a + n * 2 ^ 21 ≤ 0x10000000000 + s.f oTierMap 22 0 * 2 ^ 21 →
    (act = 4 → (∀ i ∈ r.hintPages, (s.page i).st ≠ .fetching) → Leads .clear s (fun t => Done .sq r.seq t ∧ t.byte (s.compAddr .sq r.seq + 5) = 0#8 ∧
      ∀ i, if i ∈ r.hintPages ∧ (s.page i).st = .poisoned then (t.page i).st = .zero ∧ t.hasFlash i = false else t.page i = s.page i)) ∧
    (∀ i f p rest, act = 5 → r.hintPages = [i] → (s.page i).st = .poisoned → (s.page i).got = true → s.tier.free = f :: rest → s.partner = some p →
      s.tier.fetches.any (·.1 == i) = false →
      Leads .refetch s (fun t => (t.page i).st = .fetching ∧ (t.page i).frame = some f ∧ t.tier.free = rest ∧
        t.out.peer = s.out.peer ++ [.pageFetch p i (s.page i).digest] ∧ t.tier.fetches = s.tier.fetches ++ [(i, s.beat)] ∧
        t.run .sq = some { r with info := [i] })) ∧
    (∀ i, act = 0 → r.hintPages = [i] → (s.page i).st = .zero → s.tier.waits = [] →
      Leads .prefetch s (fun t => t.tier.waits = [⟨i, s.beat, 5, false, noRing⟩] ∧ t.run .sq = some { r with info := [i] } ∧ t.live = s.live ∧ t.mem = s.mem)) ∧
    (act = 0 → (∀ i ∈ r.hintPages, (s.page i).served = true) → s.tier.waits = [] →
      Leads .prefetch s (fun t => Done .sq r.seq t ∧ t.byte (s.compAddr .sq r.seq + 5) = 0#8 ∧ t.tier.pages = s.tier.pages))
end

