-- ==== Sys2Proof/Laws/Fields.lean ====
section
/-! SUPPORT. Fields of words: what a read of a field gives after another was set. -/
namespace Sys2Proof.Machine

theorem fmask_bit (hi lo i : Nat) (hl : lo ≤ hi + 1) : (fmask hi lo).getLsbD i = (decide (i < 64) && decide (lo ≤ i ∧ i ≤ hi)) := by
  simp only [fmask, BitVec.getLsbD_ofNat, Nat.testBit_shiftLeft, Nat.testBit_two_pow_sub_one]
  by_cases h1 : i < 64 <;> by_cases h2 : lo ≤ i <;> by_cases h3 : i ≤ hi <;> simp [h1, h2, h3] <;> omega

/-- The bits of a word after a field was set. -/
theorem setFld_bit (w : Word) (hi lo v i : Nat) (hl : lo ≤ hi + 1) (h : i < 64) :
    (setFld w hi lo v).getLsbD i = if lo ≤ i ∧ i ≤ hi then v.testBit (i - lo) else w.getLsbD i := by
  simp only [setFld, BitVec.getLsbD_or, BitVec.getLsbD_and, BitVec.getLsbD_not, fmask_bit hi lo i hl, BitVec.getLsbD_ofNat,
    Nat.testBit_shiftLeft, h]
  by_cases h2 : lo ≤ i <;> by_cases h3 : i ≤ hi <;> simp [h2, h3]

/-- The bits of a field. -/
theorem fld_testBit (w : Word) (hi lo j : Nat) : (fld w hi lo).testBit j = (decide (j < hi + 1 - lo) && w.getLsbD (lo + j)) := by
  simp [fld, BitVec.testBit_toNat]

theorem fld_lt (w : Word) (hi lo : Nat) : fld w hi lo < 2 ^ (hi + 1 - lo) := by
  unfold fld; exact BitVec.isLt _

/-- A field read after it was set: the value, cut to the field's width. -/
theorem fld_setFld_same (w : Word) (hi lo v : Nat) (hl : lo ≤ hi) (h : hi < 64) :
    fld (setFld w hi lo v) hi lo = v % 2 ^ (hi + 1 - lo) := by
  apply Nat.eq_of_testBit_eq
  intro j
  rw [fld_testBit, Nat.testBit_mod_two_pow]
  by_cases hj : j < hi + 1 - lo
  · have h2 : lo ≤ lo + j ∧ lo + j ≤ hi := by omega
    rw [setFld_bit _ _ _ _ _ (by omega) (by omega), if_pos h2]
    simp [hj]
  · simp [hj]

/-- A field read after another, disjoint one was set. -/
theorem fld_setFld_other (w : Word) (hi lo v hi' lo' : Nat) (hl : lo ≤ hi + 1) (h : hi' < 64) (hd : hi' < lo ∨ hi < lo') :
    fld (setFld w hi lo v) hi' lo' = fld w hi' lo' := by
  apply Nat.eq_of_testBit_eq
  intro j
  rw [fld_testBit, fld_testBit]
  by_cases hj : j < hi' + 1 - lo'
  · have h2 : ¬ (lo ≤ lo' + j ∧ lo' + j ≤ hi) := by omega
    rw [setFld_bit _ _ _ _ _ hl (by omega), if_neg h2]
  · simp [hj]

/-- A bit read after it was set. -/
theorem bit_setBit_same (w : Word) (i : Nat) (b : Bool) (h : i < 64) : bit (setBit w i b) i = b := by
  unfold bit setBit
  rw [setFld_bit _ _ _ _ _ (by omega) h, if_pos ⟨Nat.le_refl i, Nat.le_refl i⟩]
  cases b <;> simp

/-- A bit read after another was set. -/
theorem bit_setBit_other (w : Word) (i j : Nat) (b : Bool) (h : i ≠ j) (hj : j < 64) : bit (setBit w i b) j = bit w j := by
  unfold bit setBit
  rw [setFld_bit _ _ _ _ _ (by omega) hj, if_neg (by omega)]

/-- A bit read after a field that it is not of was set. -/
theorem bit_setFld_other (w : Word) (hi lo v j : Nat) (hl : lo ≤ hi + 1) (hj : j < 64) (hd : j < lo ∨ hi < j) :
    bit (setFld w hi lo v) j = bit w j := by
  unfold bit
  rw [setFld_bit _ _ _ _ _ hl hj, if_neg (by omega)]

/-- A field read after a bit that is not of it was set. -/
theorem fld_setBit_other (w : Word) (i : Nat) (b : Bool) (hi lo : Nat) (h : hi < 64) (hd : hi < i ∨ i < lo) :
    fld (setBit w i b) hi lo = fld w hi lo := by
  unfold setBit
  exact fld_setFld_other _ _ _ _ _ _ (by omega) h hd

/-- A counter field after it advanced (R457). -/
theorem fld_satAdd (w : Word) (hi lo n : Nat) (hl : lo ≤ hi) (h : hi < 64) :
    fld (satAdd w hi lo n) hi lo = min (fld w hi lo + n) (2 ^ (hi + 1 - lo) - 1) := by
  unfold satAdd
  rw [fld_setFld_same _ _ _ _ hl h]
  apply Nat.mod_eq_of_lt
  have : 0 < 2 ^ (hi + 1 - lo) := Nat.two_pow_pos _
  omega

/-- A field of a word other than a counter that advanced. -/
theorem fld_satAdd_other (w : Word) (hi lo n hi' lo' : Nat) (hl : lo ≤ hi + 1) (h : hi' < 64) (hd : hi' < lo ∨ hi < lo') :
    fld (satAdd w hi lo n) hi' lo' = fld w hi' lo' := by
  unfold satAdd
  exact fld_setFld_other _ _ _ _ _ _ hl h hd

/-- A bit of a word outside a counter that advanced. -/
theorem bit_satAdd_other (w : Word) (hi lo n j : Nat) (hl : lo ≤ hi + 1) (hj : j < 64) (hd : j < lo ∨ hi < j) :
    bit (satAdd w hi lo n) j = bit w j := by
  unfold satAdd
  exact bit_setFld_other _ _ _ _ _ hl hj hd

/-- A field of the empty word. -/
@[simp] theorem fld_zero (hi lo : Nat) : fld 0#64 hi lo = 0 := by
  apply Nat.eq_of_testBit_eq
  intro j
  rw [fld_testBit]
  simp

end Sys2Proof.Machine
end

