-- ==== Sys2Proof/Laws/Maps.lean ====
section
/-! SUPPORT. Sparse maps: reading after writing, and the canonical form that every operation over them keeps. -/
namespace Sys2Proof.Machine

variable {V : Type}

/-- The keys of a map lie above a bound. -/
def above (k : Nat) (m : FMap V) : Prop := ∀ e ∈ m, k < e.1

theorem fsorted_cons (a : Nat) (v : V) (t : FMap V) : fsorted ((a, v) :: t) = true ↔ above a t ∧ fsorted t = true := by
  induction t generalizing a v with
  | nil => simp [fsorted, above]
  | cons e t ih =>
    obtain ⟨b, w⟩ := e
    have hb := ih b w
    constructor
    · intro h
      have h2 : a < b ∧ fsorted ((b, w) :: t) = true := by simpa [fsorted] using h
      refine ⟨?_, h2.2⟩
      intro e he
      rcases List.mem_cons.1 he with rfl | he
      · exact h2.1
      · exact Nat.lt_trans h2.1 ((hb.1 h2.2).1 e he)
    · rintro ⟨h1, h2⟩
      have : a < b := h1 (b, w) (by simp)
      simpa [fsorted, this] using h2

theorem fget_above (d : Nat → V) (m : FMap V) (k : Nat) (h : above k m) : fget d m k = d k := by
  cases m with
  | nil => rfl
  | cons e t =>
    obtain ⟨a, v⟩ := e
    have : k < a := h (a, v) (by simp)
    have h2 : k ≠ a := by omega
    simp [fget, this, h2]

variable [DecidableEq V]

theorem above_fset {d : Nat → V} {m : FMap V} {j k : Nat} {v : V} (h : above j m) (hk : j < k) : above j (fset d m k v) := by
  induction m with
  | nil => by_cases hv : v = d k <;> simp [fset, hv, above, hk]
  | cons e t ih =>
    obtain ⟨a, w⟩ := e
    have ha : j < a := h (a, w) (by simp)
    have ht : above j t := fun e he => h e (by simp [he])
    unfold fset
    split
    · split
      · exact h
      · intro e he
        rcases List.mem_cons.1 he with rfl | he
        · exact hk
        · exact h e he
    · split
      · split
        · exact ht
        · intro e he
          rcases List.mem_cons.1 he with rfl | he
          · exact hk
          · exact ht e he
      · intro e he
        rcases List.mem_cons.1 he with rfl | he
        · exact ha
        · exact ih ht e he

theorem fset_sorted {d : Nat → V} {m : FMap V} {k : Nat} {v : V} (h : fsorted m = true) : fsorted (fset d m k v) = true := by
  induction m with
  | nil => by_cases hv : v = d k <;> simp [fset, hv, fsorted]
  | cons e t ih =>
    obtain ⟨a, w⟩ := e
    obtain ⟨h1, h2⟩ := (fsorted_cons a w t).1 h
    unfold fset
    split
    · rename_i hlt
      split
      · exact h
      · refine (fsorted_cons _ _ _).2 ⟨?_, h⟩
        intro e he
        rcases List.mem_cons.1 he with rfl | he
        · exact hlt
        · exact Nat.lt_trans hlt (h1 e he)
    · split
      · rename_i h3 h4
        subst h4
        split
        · exact h2
        · exact (fsorted_cons _ _ _).2 ⟨h1, h2⟩
      · rename_i h3 h4
        exact (fsorted_cons _ _ _).2 ⟨above_fset h1 (by omega), ih h2⟩

theorem mem_fset {d : Nat → V} {m : FMap V} {k : Nat} {v : V} {e : Nat × V} (h : e ∈ fset d m k v) :
    e ∈ m ∨ (e = (k, v) ∧ v ≠ d k) := by
  induction m with
  | nil =>
    by_cases hv : v = d k
    · simp [fset, hv] at h
    · simp only [fset, hv, if_false, List.mem_singleton] at h
      exact .inr ⟨h, hv⟩
  | cons x t ih =>
    obtain ⟨a, w⟩ := x
    unfold fset at h
    split at h
    · split at h
      · exact .inl h
      · rcases List.mem_cons.1 h with h | h
        · exact .inr ⟨h, by assumption⟩
        · exact .inl h
    · split at h
      · split at h
        · exact .inl (List.mem_cons_of_mem _ h)
        · rcases List.mem_cons.1 h with h | h
          · exact .inr ⟨h, by assumption⟩
          · exact .inl (List.mem_cons_of_mem _ h)
      · rcases List.mem_cons.1 h with h | h
        · exact .inl (by simp [h])
        · rcases ih h with h | h
          · exact .inl (List.mem_cons_of_mem _ h)
          · exact .inr h

theorem fwf_iff (d : Nat → V) (m : FMap V) : fwf d m = true ↔ fsorted m = true ∧ ∀ e ∈ m, e.2 ≠ d e.1 := by
  simp [fwf]

/-- A write keeps the canonical form. -/
theorem fset_wf {d : Nat → V} {m : FMap V} (k : Nat) (v : V) (h : fwf d m = true) : fwf d (fset d m k v) = true := by
  rw [fwf_iff] at h ⊢
  refine ⟨fset_sorted h.1, fun e he => ?_⟩
  rcases mem_fset he with he | ⟨rfl, hv⟩
  · exact h.2 e he
  · exact hv

/-- Reading after writing. -/
theorem fget_fset {d : Nat → V} {m : FMap V} (h : fsorted m = true) (k : Nat) (v : V) (i : Nat) :
    fget d (fset d m k v) i = if i = k then v else fget d m i := by
  induction m with
  | nil =>
    by_cases hv : v = d k <;> by_cases hi : i = k <;> simp [fset, fget, hv, hi]
  | cons x t ih =>
    obtain ⟨a, w⟩ := x
    obtain ⟨h1, h2⟩ := (fsorted_cons a w t).1 h
    have above_t : ∀ j, j ≤ a → fget d t j = d j := fun j hj =>
      fget_above d t j (fun e he => Nat.lt_of_le_of_lt hj (h1 e he))
    unfold fset
    by_cases hka : k < a
    · have hk2 : k ≠ a := by omega
      by_cases hv : v = d k <;> by_cases hi : i = k
      · subst hi; simp [hka, hv, fget, hk2]
      · simp [hka, hv, hi]
      · subst hi; simp [hka, hv, fget]
      · simp only [hka, if_true, hv, if_false, fget, hi]
        by_cases h3 : i < k
        · have h4 : i < a := by omega
          have h5 : i ≠ a := by omega
          simp [h3, h4, h5]
        · simp [h3]
    · by_cases hka2 : k = a
      · subst hka2
        by_cases hv : v = d k <;> by_cases hi : i = k
        · subst hi; simp [hv, above_t i (Nat.le_refl i)]
        · simp only [Nat.lt_irrefl, if_false, hv, if_true, hi, fget]
          by_cases h3 : i < k
          · simp [h3, above_t i (by omega)]
          · simp [h3]
        · subst hi; simp [hv, fget]
        · simp [hv, fget, hi]
      · simp only [hka, hka2, if_false, fget]
        rw [ih h2]
        by_cases hia : i = a
        · have : i ≠ k := by omega
          subst hia; simp [this]
        · by_cases hi : i = k
          · subst hi; simp [hia, hka]
          · simp [hia, hi]

theorem foldr_fset_wf (d : Nat → V) (m : FMap V) : fwf d (m.foldr (fun e acc => fset d acc e.1 e.2) []) = true := by
  induction m with
  | nil => rfl
  | cons e t ih => exact fset_wf _ _ ih

/-- The canonical form is one. -/
theorem fcanon_wf (d : Nat → V) (m : FMap V) : fwf d (fcanon d m) = true := by
  unfold fcanon
  split
  · assumption
  · exact foldr_fset_wf d m

/-- A map in canonical form stays as it is. -/
theorem fcanon_of_wf {d : Nat → V} {m : FMap V} (h : fwf d m = true) : fcanon d m = m := by simp [fcanon, h]

/-- Part of a canonical map is canonical. -/
theorem filter_wf {d : Nat → V} {m : FMap V} (p : Nat × V → Bool) (h : fwf d m = true) : fwf d (m.filter p) = true := by
  rw [fwf_iff] at h ⊢
  refine ⟨?_, fun e he => h.2 e (List.mem_filter.1 he).1⟩
  have hs := h.1
  clear h
  induction m with
  | nil => rfl
  | cons e t ih =>
    obtain ⟨a, v⟩ := e
    obtain ⟨h1, h2⟩ := (fsorted_cons a v t).1 hs
    rw [List.filter_cons]
    split
    · exact (fsorted_cons _ _ _).2 ⟨fun e he => h1 e (List.mem_filter.1 he).1, ih h2⟩
    · exact ih h2

omit [DecidableEq V] in
theorem append_sorted {m n : FMap V} (hm : fsorted m = true) (hn : fsorted n = true) (h : ∀ x ∈ m, ∀ y ∈ n, x.1 < y.1) :
    fsorted (m ++ n) = true := by
  induction m with
  | nil => exact hn
  | cons e t ih =>
    obtain ⟨a, v⟩ := e
    obtain ⟨h1, h2⟩ := (fsorted_cons a v t).1 hm
    refine (fsorted_cons _ _ _).2 ⟨?_, ih h2 (fun x hx => h x (by simp [hx]))⟩
    intro e he
    rcases List.mem_append.1 he with he | he
    · exact h1 e he
    · exact h (a, v) (by simp) e he

theorem fentries_mem {d : Nat → V} {k : Nat} {vs : List V} {e : Nat × V} (h : e ∈ fentries d k vs) :
    k ≤ e.1 ∧ e.1 < k + vs.length ∧ e.2 ≠ d e.1 := by
  induction vs generalizing k with
  | nil => simp [fentries] at h
  | cons v t ih =>
    unfold fentries at h
    have step : e ∈ fentries d (k + 1) t → k ≤ e.1 ∧ e.1 < k + (v :: t).length ∧ e.2 ≠ d e.1 := fun h => by
      obtain ⟨h1, h2, h3⟩ := ih h
      simp only [List.length_cons]
      exact ⟨by omega, by omega, h3⟩
    split at h
    · exact step h
    · rename_i hv
      rcases List.mem_cons.1 h with rfl | h
      · exact ⟨Nat.le_refl k, by simp, hv⟩
      · exact step h

theorem fentries_sorted (d : Nat → V) (k : Nat) (vs : List V) : fsorted (fentries d k vs) = true := by
  induction vs generalizing k with
  | nil => rfl
  | cons v t ih =>
    unfold fentries
    split
    · exact ih _
    · exact (fsorted_cons _ _ _).2 ⟨fun e he => (fentries_mem he).1, ih _⟩

/-- A write of consecutive keys keeps the canonical form. -/
theorem fsetRange_wf {d : Nat → V} {m : FMap V} (k : Nat) (vs : List V) (h : fwf d m = true) : fwf d (fsetRange d m k vs) = true := by
  have h1 := filter_wf (fun e => e.1 < k) h
  have h2 := filter_wf (fun e => k + vs.length ≤ e.1) h
  rw [fwf_iff] at h1 h2 ⊢
  refine ⟨?_, ?_⟩
  · unfold fsetRange
    refine append_sorted (append_sorted h1.1 (fentries_sorted d k vs) ?_) h2.1 ?_
    · intro x hx y hy
      have hx := (List.mem_filter.1 hx).2
      have hy := (fentries_mem hy).1
      simp only [decide_eq_true_eq] at hx
      omega
    · intro x hx y hy
      have hy := (List.mem_filter.1 hy).2
      simp only [decide_eq_true_eq] at hy
      rcases List.mem_append.1 hx with hx | hx
      · have hx := (List.mem_filter.1 hx).2
        simp only [decide_eq_true_eq] at hx
        omega
      · have := (fentries_mem hx).2.1
        omega
  · intro e he
    unfold fsetRange at he
    rcases List.mem_append.1 he with he | he
    · rcases List.mem_append.1 he with he | he
      · exact h1.2 e he
      · exact (fentries_mem he).2.2
    · exact h2.2 e he

omit [DecidableEq V] in
theorem fget_filter_lt {d : Nat → V} {m : FMap V} (h : fsorted m = true) (k i : Nat) :
    fget d (m.filter (fun e => e.1 < k)) i = if i < k then fget d m i else d i := by
  induction m with
  | nil => simp [fget]
  | cons e t ih =>
    obtain ⟨a, v⟩ := e
    obtain ⟨h1, h2⟩ := (fsorted_cons a v t).1 h
    rw [List.filter_cons]
    by_cases hak : a < k
    · simp only [hak, decide_true, if_true, fget]
      rw [ih h2]
      by_cases hi : i = a
      · subst hi; simp [hak]
      · by_cases h3 : i < a
        · have : i < k := by omega
          simp [hi, h3, this]
        · simp [hi, h3]
    · simp only [hak, decide_false, Bool.false_eq_true, if_false]
      rw [ih h2]
      by_cases h3 : i < k
      · have h4 : i < a := by omega
        have h5 : i ≠ a := by omega
        simp [h3, fget, h4, h5, fget_above d t i (fun e he => Nat.lt_trans h4 (h1 e he))]
      · simp [h3]

omit [DecidableEq V] in
theorem fget_filter_ge {d : Nat → V} {m : FMap V} (h : fsorted m = true) (k i : Nat) :
    fget d (m.filter (fun e => k ≤ e.1)) i = if k ≤ i then fget d m i else d i := by
  induction m with
  | nil => simp [fget]
  | cons e t ih =>
    obtain ⟨a, v⟩ := e
    obtain ⟨h1, h2⟩ := (fsorted_cons a v t).1 h
    rw [List.filter_cons]
    by_cases hak : k ≤ a
    · simp only [hak, decide_true, if_true, fget]
      rw [ih h2]
      by_cases hi : i = a
      · subst hi; simp [hak]
      · by_cases h3 : i < a
        · simp [hi, h3]
        · simp [hi, h3]
    · simp only [hak, decide_false, Bool.false_eq_true, if_false]
      rw [ih h2]
      by_cases h3 : k ≤ i
      · have h4 : ¬ i < a := by omega
        have h5 : i ≠ a := by omega
        simp [h3, fget, h4, h5]
      · simp [h3]

omit [DecidableEq V] in
theorem fget_append {d : Nat → V} {m n : FMap V} (hm : fsorted m = true) (h : ∀ x ∈ m, ∀ y ∈ n, x.1 < y.1) (i : Nat) :
    fget d (m ++ n) i = if (∃ x ∈ m, i ≤ x.1) then fget d m i else fget d n i := by
  induction m with
  | nil => simp
  | cons e t ih =>
    obtain ⟨a, v⟩ := e
    obtain ⟨h1, h2⟩ := (fsorted_cons a v t).1 hm
    have ih := ih h2 (fun x hx => h x (by simp [hx]))
    by_cases hi : i = a
    · subst hi; simp [fget]
    · by_cases h3 : i < a
      · have : ∃ x ∈ (a, v) :: t, i ≤ x.1 := ⟨(a, v), by simp, by show i ≤ a; omega⟩
        rw [if_pos this]
        simp [fget, hi, h3]
      · have hiff : (∃ x ∈ (a, v) :: t, i ≤ x.1) ↔ ∃ x ∈ t, i ≤ x.1 := by
          constructor
          · rintro ⟨x, hx, hle⟩
            rcases List.mem_cons.1 hx with rfl | hx
            · exact absurd hle (by show ¬ i ≤ a; omega)
            · exact ⟨x, hx, hle⟩
          · rintro ⟨x, hx, hle⟩; exact ⟨x, by simp [hx], hle⟩
        simp only [List.cons_append, fget, hi, h3, if_false, ih, hiff]

theorem fget_fentries (d : Nat → V) (k : Nat) (vs : List V) (i : Nat) :
    fget d (fentries d k vs) i = if k ≤ i ∧ i < k + vs.length then nth (d i) vs (i - k) else d i := by
  induction vs generalizing k with
  | nil =>
    simp [fentries, fget, nth]
  | cons v t ih =>
    unfold fentries
    by_cases hv : v = d k
    · rw [if_pos hv, ih]
      by_cases hi : i = k
      · subst hi
        have h1 : ¬ (i + 1 ≤ i) := by omega
        simp [h1, nth, hv]
      · by_cases h2 : k ≤ i ∧ i < k + (v :: t).length
        · have h3 : k + 1 ≤ i ∧ i < k + 1 + t.length := by simp only [List.length_cons] at h2; omega
          obtain ⟨j, hj⟩ : ∃ j, i - k = j + 1 := ⟨i - k - 1, by omega⟩
          have hj2 : i - (k + 1) = j := by omega
          rw [if_pos h2, if_pos h3, hj, hj2]; rfl
        · have h3 : ¬ (k + 1 ≤ i ∧ i < k + 1 + t.length) := by simp only [List.length_cons] at h2; omega
          rw [if_neg h2, if_neg h3]
    · rw [if_neg hv]
      by_cases hi : i = k
      · subst hi; simp [fget, nth]
      · simp only [fget, hi, if_false]
        by_cases hlt : i < k
        · have h2 : ¬ (k ≤ i ∧ i < k + (v :: t).length) := by omega
          simp only [hlt, if_true, h2, if_false]
        · simp only [hlt, if_false]
          rw [ih]
          by_cases h2 : k ≤ i ∧ i < k + (v :: t).length
          · have h3 : k + 1 ≤ i ∧ i < k + 1 + t.length := by simp only [List.length_cons] at h2; omega
            obtain ⟨j, hj⟩ : ∃ j, i - k = j + 1 := ⟨i - k - 1, by omega⟩
            have hj2 : i - (k + 1) = j := by omega
            rw [if_pos h2, if_pos h3, hj, hj2]; rfl
          · have h3 : ¬ (k + 1 ≤ i ∧ i < k + 1 + t.length) := by simp only [List.length_cons] at h2; omega
            rw [if_neg h2, if_neg h3]

/-- Reading after a write of consecutive keys. -/
theorem fget_fsetRange {d : Nat → V} {m : FMap V} (h : fsorted m = true) (k : Nat) (vs : List V) (i : Nat) :
    fget d (fsetRange d m k vs) i = if k ≤ i ∧ i < k + vs.length then nth (d i) vs (i - k) else fget d m i := by
  have hl : fsorted (m.filter (fun e => e.1 < k)) = true := by
    have := filter_wf (d := d) (m := m) (fun e => e.1 < k)
    clear this
    induction m with
    | nil => rfl
    | cons e t ih =>
      obtain ⟨a, v⟩ := e
      obtain ⟨h1, h2⟩ := (fsorted_cons a v t).1 h
      rw [List.filter_cons]
      split
      · exact (fsorted_cons _ _ _).2 ⟨fun e he => h1 e (List.mem_filter.1 he).1, ih h2⟩
      · exact ih h2
  have mid : ∀ x ∈ fentries d k vs, k ≤ x.1 ∧ x.1 < k + vs.length := fun x hx => ⟨(fentries_mem hx).1, (fentries_mem hx).2.1⟩
  have lo : ∀ x ∈ m.filter (fun e => e.1 < k), x.1 < k := fun x hx => by simpa using (List.mem_filter.1 hx).2
  have hi : ∀ x ∈ m.filter (fun e => k + vs.length ≤ e.1), k + vs.length ≤ x.1 := fun x hx => by simpa using (List.mem_filter.1 hx).2
  unfold fsetRange
  rw [List.append_assoc, fget_append hl (fun x hx y hy => by
    have := lo x hx
    rcases List.mem_append.1 hy with hy | hy
    · have := mid y hy; omega
    · have := hi y hy; omega)]
  rw [fget_append (fentries_sorted d k vs) (fun x hx y hy => by have := mid x hx; have := hi y hy; omega)]
  rw [fget_filter_lt h, fget_fentries, fget_filter_ge h]
  by_cases h1 : i < k
  · have h2 : ¬ (k ≤ i ∧ i < k + vs.length) := by omega
    have h3 : ¬ (k + vs.length ≤ i) := by omega
    simp only [h1, if_true, h2, if_false, h3]
    split
    · rfl
    · rename_i hex
      -- nothing below k from i on: the original reads the default too
      have : fget d m i = d i := by
        have key : fget d (m.filter (fun e => e.1 < k)) i = d i := by
          have : ∀ x ∈ m.filter (fun e => e.1 < k), x.1 < i := fun x hx => by
            apply Nat.lt_of_not_le
            intro hc
            exact hex ⟨x, hx, hc⟩
          revert this
          generalize m.filter (fun e => e.1 < k) = n
          intro this
          induction n with
          | nil => rfl
          | cons e t ih =>
            obtain ⟨a, v⟩ := e
            have ha : a < i := this (a, v) (by simp)
            have h5 : i ≠ a := by omega
            have h6 : ¬ i < a := by omega
            simp only [fget, h5, h6, if_false]
            exact ih (fun x hx => this x (by simp [hx]))
        rw [fget_filter_lt h, if_pos h1] at key
        exact key
      rw [this]
      split <;> rfl
  · have hno : ¬ ∃ x ∈ m.filter (fun e => e.1 < k), i ≤ x.1 := by
      rintro ⟨x, hx, hc⟩; have := lo x hx; omega
    rw [if_neg hno]
    by_cases h2 : k ≤ i ∧ i < k + vs.length
    · have h3 : ¬ (k + vs.length ≤ i) := by omega
      simp only [h2, and_self, if_true, h3, if_false]
      split
      · rfl
      · rename_i hex
        have key : fget d (fentries d k vs) i = d i := by
          have : ∀ x ∈ fentries d k vs, x.1 < i := fun x hx => by
            apply Nat.lt_of_not_le
            intro hc
            exact hex ⟨x, hx, hc⟩
          revert this
          generalize fentries d k vs = n
          intro this
          induction n with
          | nil => rfl
          | cons e t ih =>
            obtain ⟨a, v⟩ := e
            have ha : a < i := this (a, v) (by simp)
            have h5 : i ≠ a := by omega
            have h6 : ¬ i < a := by omega
            simp only [fget, h5, h6, if_false]
            exact ih (fun x hx => this x (by simp [hx]))
        rw [fget_fentries, if_pos h2] at key
        exact key.symm
    · have h3 : k + vs.length ≤ i := by omega
      have hno2 : ¬ ∃ x ∈ fentries d k vs, i ≤ x.1 := by
        rintro ⟨x, hx, hc⟩; have := mid x hx; omega
      simp only [h2, if_false, hno2, h3, if_true]

end Sys2Proof.Machine
end

