-- ==== Sys2Proof/Laws/State.lean ====
section
/-! SUPPORT. What each update of the state leaves alone, field by field; registers, staged copies and memory read after a write; the
canonical form kept; the outcome of a command whose conditions hold. -/
namespace Sys2Proof.Machine

/-! Fields that an update does not touch -/

@[simp] theorem State.setReg_pin (s : State) (o : Nat) (w : Word) : (s.setReg o w).pin = s.pin := rfl
@[simp] theorem State.setReg_staged (s : State) (o : Nat) (w : Word) : (s.setReg o w).staged = s.staged := rfl
@[simp] theorem State.setReg_mirror (s : State) (o : Nat) (w : Word) : (s.setReg o w).mirror = s.mirror := rfl
@[simp] theorem State.setReg_stage (s : State) (o : Nat) (w : Word) : (s.setReg o w).stage = s.stage := rfl
@[simp] theorem State.setReg_quiesced (s : State) (o : Nat) (w : Word) : (s.setReg o w).quiesced = s.quiesced := rfl
@[simp] theorem State.setReg_mem (s : State) (o : Nat) (w : Word) : (s.setReg o w).mem = s.mem := rfl
@[simp] theorem State.setReg_badLines (s : State) (o : Nat) (w : Word) : (s.setReg o w).badLines = s.badLines := rfl
@[simp] theorem State.setReg_io (s : State) (o : Nat) (w : Word) : (s.setReg o w).io = s.io := rfl
@[simp] theorem State.setReg_queues (s : State) (o : Nat) (w : Word) : (s.setReg o w).queues = s.queues := rfl
@[simp] theorem State.setReg_jobs (s : State) (o : Nat) (w : Word) : (s.setReg o w).jobs = s.jobs := rfl
@[simp] theorem State.setReg_rings (s : State) (o : Nat) (w : Word) : (s.setReg o w).rings = s.rings := rfl
@[simp] theorem State.setReg_stops (s : State) (o : Nat) (w : Word) : (s.setReg o w).stops = s.stops := rfl
@[simp] theorem State.setReg_fab (s : State) (o : Nat) (w : Word) : (s.setReg o w).fab = s.fab := rfl
@[simp] theorem State.setReg_step (s : State) (o : Nat) (w : Word) : (s.setReg o w).step = s.step := rfl
@[simp] theorem State.setReg_fwd (s : State) (o : Nat) (w : Word) : (s.setReg o w).fwd = s.fwd := rfl
@[simp] theorem State.setReg_commit (s : State) (o : Nat) (w : Word) : (s.setReg o w).commit = s.commit := rfl
@[simp] theorem State.setReg_grad (s : State) (o : Nat) (w : Word) : (s.setReg o w).grad = s.grad := rfl
@[simp] theorem State.setReg_cyan (s : State) (o : Nat) (w : Word) : (s.setReg o w).cyan = s.cyan := rfl
@[simp] theorem State.setReg_stash (s : State) (o : Nat) (w : Word) : (s.setReg o w).stash = s.stash := rfl
@[simp] theorem State.setReg_tier (s : State) (o : Nat) (w : Word) : (s.setReg o w).tier = s.tier := rfl
@[simp] theorem State.setReg_res (s : State) (o : Nat) (w : Word) : (s.setReg o w).res = s.res := rfl
@[simp] theorem State.setReg_peer (s : State) (o : Nat) (w : Word) : (s.setReg o w).peer = s.peer := rfl
@[simp] theorem State.setReg_out (s : State) (o : Nat) (w : Word) : (s.setReg o w).out = s.out := rfl
@[simp] theorem State.setReg_pending (s : State) (o : Nat) (w : Word) : (s.setReg o w).pending = s.pending := rfl
@[simp] theorem State.setReg_freeCtr (s : State) (o : Nat) (w : Word) : (s.setReg o w).freeCtr = s.freeCtr := rfl
@[simp] theorem State.setStg_pin (s : State) (o : Nat) (w : Word) : (s.setStg o w).pin = s.pin := rfl
@[simp] theorem State.setStg_live (s : State) (o : Nat) (w : Word) : (s.setStg o w).live = s.live := rfl
@[simp] theorem State.setStg_mirror (s : State) (o : Nat) (w : Word) : (s.setStg o w).mirror = s.mirror := rfl
@[simp] theorem State.setStg_stage (s : State) (o : Nat) (w : Word) : (s.setStg o w).stage = s.stage := rfl
@[simp] theorem State.setStg_quiesced (s : State) (o : Nat) (w : Word) : (s.setStg o w).quiesced = s.quiesced := rfl
@[simp] theorem State.setStg_mem (s : State) (o : Nat) (w : Word) : (s.setStg o w).mem = s.mem := rfl
@[simp] theorem State.setStg_badLines (s : State) (o : Nat) (w : Word) : (s.setStg o w).badLines = s.badLines := rfl
@[simp] theorem State.setStg_io (s : State) (o : Nat) (w : Word) : (s.setStg o w).io = s.io := rfl
@[simp] theorem State.setStg_queues (s : State) (o : Nat) (w : Word) : (s.setStg o w).queues = s.queues := rfl
@[simp] theorem State.setStg_jobs (s : State) (o : Nat) (w : Word) : (s.setStg o w).jobs = s.jobs := rfl
@[simp] theorem State.setStg_rings (s : State) (o : Nat) (w : Word) : (s.setStg o w).rings = s.rings := rfl
@[simp] theorem State.setStg_stops (s : State) (o : Nat) (w : Word) : (s.setStg o w).stops = s.stops := rfl
@[simp] theorem State.setStg_fab (s : State) (o : Nat) (w : Word) : (s.setStg o w).fab = s.fab := rfl
@[simp] theorem State.setStg_step (s : State) (o : Nat) (w : Word) : (s.setStg o w).step = s.step := rfl
@[simp] theorem State.setStg_fwd (s : State) (o : Nat) (w : Word) : (s.setStg o w).fwd = s.fwd := rfl
@[simp] theorem State.setStg_commit (s : State) (o : Nat) (w : Word) : (s.setStg o w).commit = s.commit := rfl
@[simp] theorem State.setStg_grad (s : State) (o : Nat) (w : Word) : (s.setStg o w).grad = s.grad := rfl
@[simp] theorem State.setStg_cyan (s : State) (o : Nat) (w : Word) : (s.setStg o w).cyan = s.cyan := rfl
@[simp] theorem State.setStg_stash (s : State) (o : Nat) (w : Word) : (s.setStg o w).stash = s.stash := rfl
@[simp] theorem State.setStg_tier (s : State) (o : Nat) (w : Word) : (s.setStg o w).tier = s.tier := rfl
@[simp] theorem State.setStg_res (s : State) (o : Nat) (w : Word) : (s.setStg o w).res = s.res := rfl
@[simp] theorem State.setStg_peer (s : State) (o : Nat) (w : Word) : (s.setStg o w).peer = s.peer := rfl
@[simp] theorem State.setStg_out (s : State) (o : Nat) (w : Word) : (s.setStg o w).out = s.out := rfl
@[simp] theorem State.setStg_pending (s : State) (o : Nat) (w : Word) : (s.setStg o w).pending = s.pending := rfl
@[simp] theorem State.setStg_freeCtr (s : State) (o : Nat) (w : Word) : (s.setStg o w).freeCtr = s.freeCtr := rfl
@[simp] theorem State.store_pin (s : State) (a : Nat) (bs : List Byte) : (s.store a bs).pin = s.pin := rfl
@[simp] theorem State.store_live (s : State) (a : Nat) (bs : List Byte) : (s.store a bs).live = s.live := rfl
@[simp] theorem State.store_staged (s : State) (a : Nat) (bs : List Byte) : (s.store a bs).staged = s.staged := rfl
@[simp] theorem State.store_mirror (s : State) (a : Nat) (bs : List Byte) : (s.store a bs).mirror = s.mirror := rfl
@[simp] theorem State.store_stage (s : State) (a : Nat) (bs : List Byte) : (s.store a bs).stage = s.stage := rfl
@[simp] theorem State.store_quiesced (s : State) (a : Nat) (bs : List Byte) : (s.store a bs).quiesced = s.quiesced := rfl
@[simp] theorem State.store_io (s : State) (a : Nat) (bs : List Byte) : (s.store a bs).io = s.io := rfl
@[simp] theorem State.store_queues (s : State) (a : Nat) (bs : List Byte) : (s.store a bs).queues = s.queues := rfl
@[simp] theorem State.store_jobs (s : State) (a : Nat) (bs : List Byte) : (s.store a bs).jobs = s.jobs := rfl
@[simp] theorem State.store_rings (s : State) (a : Nat) (bs : List Byte) : (s.store a bs).rings = s.rings := rfl
@[simp] theorem State.store_stops (s : State) (a : Nat) (bs : List Byte) : (s.store a bs).stops = s.stops := rfl
@[simp] theorem State.store_fab (s : State) (a : Nat) (bs : List Byte) : (s.store a bs).fab = s.fab := rfl
@[simp] theorem State.store_step (s : State) (a : Nat) (bs : List Byte) : (s.store a bs).step = s.step := rfl
@[simp] theorem State.store_fwd (s : State) (a : Nat) (bs : List Byte) : (s.store a bs).fwd = s.fwd := rfl
@[simp] theorem State.store_commit (s : State) (a : Nat) (bs : List Byte) : (s.store a bs).commit = s.commit := rfl
@[simp] theorem State.store_grad (s : State) (a : Nat) (bs : List Byte) : (s.store a bs).grad = s.grad := rfl
@[simp] theorem State.store_cyan (s : State) (a : Nat) (bs : List Byte) : (s.store a bs).cyan = s.cyan := rfl
@[simp] theorem State.store_stash (s : State) (a : Nat) (bs : List Byte) : (s.store a bs).stash = s.stash := rfl
@[simp] theorem State.store_tier (s : State) (a : Nat) (bs : List Byte) : (s.store a bs).tier = s.tier := rfl
@[simp] theorem State.store_res (s : State) (a : Nat) (bs : List Byte) : (s.store a bs).res = s.res := rfl
@[simp] theorem State.store_peer (s : State) (a : Nat) (bs : List Byte) : (s.store a bs).peer = s.peer := rfl
@[simp] theorem State.store_out (s : State) (a : Nat) (bs : List Byte) : (s.store a bs).out = s.out := rfl
@[simp] theorem State.store_pending (s : State) (a : Nat) (bs : List Byte) : (s.store a bs).pending = s.pending := rfl
@[simp] theorem State.store_freeCtr (s : State) (a : Nat) (bs : List Byte) : (s.store a bs).freeCtr = s.freeCtr := rfl
@[simp] theorem State.respond_pin (s : State) (r : Resp) : (s.respond r).pin = s.pin := rfl
@[simp] theorem State.respond_live (s : State) (r : Resp) : (s.respond r).live = s.live := rfl
@[simp] theorem State.respond_staged (s : State) (r : Resp) : (s.respond r).staged = s.staged := rfl
@[simp] theorem State.respond_mirror (s : State) (r : Resp) : (s.respond r).mirror = s.mirror := rfl
@[simp] theorem State.respond_stage (s : State) (r : Resp) : (s.respond r).stage = s.stage := rfl
@[simp] theorem State.respond_quiesced (s : State) (r : Resp) : (s.respond r).quiesced = s.quiesced := rfl
@[simp] theorem State.respond_mem (s : State) (r : Resp) : (s.respond r).mem = s.mem := rfl
@[simp] theorem State.respond_badLines (s : State) (r : Resp) : (s.respond r).badLines = s.badLines := rfl
@[simp] theorem State.respond_io (s : State) (r : Resp) : (s.respond r).io = s.io := rfl
@[simp] theorem State.respond_queues (s : State) (r : Resp) : (s.respond r).queues = s.queues := rfl
@[simp] theorem State.respond_jobs (s : State) (r : Resp) : (s.respond r).jobs = s.jobs := rfl
@[simp] theorem State.respond_rings (s : State) (r : Resp) : (s.respond r).rings = s.rings := rfl
@[simp] theorem State.respond_stops (s : State) (r : Resp) : (s.respond r).stops = s.stops := rfl
@[simp] theorem State.respond_fab (s : State) (r : Resp) : (s.respond r).fab = s.fab := rfl
@[simp] theorem State.respond_step (s : State) (r : Resp) : (s.respond r).step = s.step := rfl
@[simp] theorem State.respond_fwd (s : State) (r : Resp) : (s.respond r).fwd = s.fwd := rfl
@[simp] theorem State.respond_commit (s : State) (r : Resp) : (s.respond r).commit = s.commit := rfl
@[simp] theorem State.respond_grad (s : State) (r : Resp) : (s.respond r).grad = s.grad := rfl
@[simp] theorem State.respond_cyan (s : State) (r : Resp) : (s.respond r).cyan = s.cyan := rfl
@[simp] theorem State.respond_stash (s : State) (r : Resp) : (s.respond r).stash = s.stash := rfl
@[simp] theorem State.respond_tier (s : State) (r : Resp) : (s.respond r).tier = s.tier := rfl
@[simp] theorem State.respond_res (s : State) (r : Resp) : (s.respond r).res = s.res := rfl
@[simp] theorem State.respond_peer (s : State) (r : Resp) : (s.respond r).peer = s.peer := rfl
@[simp] theorem State.respond_pending (s : State) (r : Resp) : (s.respond r).pending = s.pending := rfl
@[simp] theorem State.respond_freeCtr (s : State) (r : Resp) : (s.respond r).freeCtr = s.freeCtr := rfl
@[simp] theorem State.drawn_pin (s : State) (n : Nat) : (s.drawn n).pin = s.pin := rfl
@[simp] theorem State.drawn_live (s : State) (n : Nat) : (s.drawn n).live = s.live := rfl
@[simp] theorem State.drawn_staged (s : State) (n : Nat) : (s.drawn n).staged = s.staged := rfl
@[simp] theorem State.drawn_mirror (s : State) (n : Nat) : (s.drawn n).mirror = s.mirror := rfl
@[simp] theorem State.drawn_stage (s : State) (n : Nat) : (s.drawn n).stage = s.stage := rfl
@[simp] theorem State.drawn_quiesced (s : State) (n : Nat) : (s.drawn n).quiesced = s.quiesced := rfl
@[simp] theorem State.drawn_mem (s : State) (n : Nat) : (s.drawn n).mem = s.mem := rfl
@[simp] theorem State.drawn_badLines (s : State) (n : Nat) : (s.drawn n).badLines = s.badLines := rfl
@[simp] theorem State.drawn_io (s : State) (n : Nat) : (s.drawn n).io = s.io := rfl
@[simp] theorem State.drawn_queues (s : State) (n : Nat) : (s.drawn n).queues = s.queues := rfl
@[simp] theorem State.drawn_jobs (s : State) (n : Nat) : (s.drawn n).jobs = s.jobs := rfl
@[simp] theorem State.drawn_rings (s : State) (n : Nat) : (s.drawn n).rings = s.rings := rfl
@[simp] theorem State.drawn_stops (s : State) (n : Nat) : (s.drawn n).stops = s.stops := rfl
@[simp] theorem State.drawn_fab (s : State) (n : Nat) : (s.drawn n).fab = s.fab := rfl
@[simp] theorem State.drawn_step (s : State) (n : Nat) : (s.drawn n).step = s.step := rfl
@[simp] theorem State.drawn_fwd (s : State) (n : Nat) : (s.drawn n).fwd = s.fwd := rfl
@[simp] theorem State.drawn_commit (s : State) (n : Nat) : (s.drawn n).commit = s.commit := rfl
@[simp] theorem State.drawn_grad (s : State) (n : Nat) : (s.drawn n).grad = s.grad := rfl
@[simp] theorem State.drawn_cyan (s : State) (n : Nat) : (s.drawn n).cyan = s.cyan := rfl
@[simp] theorem State.drawn_stash (s : State) (n : Nat) : (s.drawn n).stash = s.stash := rfl
@[simp] theorem State.drawn_tier (s : State) (n : Nat) : (s.drawn n).tier = s.tier := rfl
@[simp] theorem State.drawn_res (s : State) (n : Nat) : (s.drawn n).res = s.res := rfl
@[simp] theorem State.drawn_peer (s : State) (n : Nat) : (s.drawn n).peer = s.peer := rfl
@[simp] theorem State.drawn_out (s : State) (n : Nat) : (s.drawn n).out = s.out := rfl
@[simp] theorem State.drawn_pending (s : State) (n : Nat) : (s.drawn n).pending = s.pending := rfl
@[simp] theorem State.setQueue_pin (s : State) (q : Queue) (x : QueueSt) : (s.setQueue q x).pin = s.pin := rfl
@[simp] theorem State.setQueue_live (s : State) (q : Queue) (x : QueueSt) : (s.setQueue q x).live = s.live := rfl
@[simp] theorem State.setQueue_staged (s : State) (q : Queue) (x : QueueSt) : (s.setQueue q x).staged = s.staged := rfl
@[simp] theorem State.setQueue_mirror (s : State) (q : Queue) (x : QueueSt) : (s.setQueue q x).mirror = s.mirror := rfl
@[simp] theorem State.setQueue_stage (s : State) (q : Queue) (x : QueueSt) : (s.setQueue q x).stage = s.stage := rfl
@[simp] theorem State.setQueue_quiesced (s : State) (q : Queue) (x : QueueSt) : (s.setQueue q x).quiesced = s.quiesced := rfl
@[simp] theorem State.setQueue_mem (s : State) (q : Queue) (x : QueueSt) : (s.setQueue q x).mem = s.mem := rfl
@[simp] theorem State.setQueue_badLines (s : State) (q : Queue) (x : QueueSt) : (s.setQueue q x).badLines = s.badLines := rfl
@[simp] theorem State.setQueue_io (s : State) (q : Queue) (x : QueueSt) : (s.setQueue q x).io = s.io := rfl
@[simp] theorem State.setQueue_jobs (s : State) (q : Queue) (x : QueueSt) : (s.setQueue q x).jobs = s.jobs := rfl
@[simp] theorem State.setQueue_rings (s : State) (q : Queue) (x : QueueSt) : (s.setQueue q x).rings = s.rings := rfl
@[simp] theorem State.setQueue_stops (s : State) (q : Queue) (x : QueueSt) : (s.setQueue q x).stops = s.stops := rfl
@[simp] theorem State.setQueue_fab (s : State) (q : Queue) (x : QueueSt) : (s.setQueue q x).fab = s.fab := rfl
@[simp] theorem State.setQueue_step (s : State) (q : Queue) (x : QueueSt) : (s.setQueue q x).step = s.step := rfl
@[simp] theorem State.setQueue_fwd (s : State) (q : Queue) (x : QueueSt) : (s.setQueue q x).fwd = s.fwd := rfl
@[simp] theorem State.setQueue_commit (s : State) (q : Queue) (x : QueueSt) : (s.setQueue q x).commit = s.commit := rfl
@[simp] theorem State.setQueue_grad (s : State) (q : Queue) (x : QueueSt) : (s.setQueue q x).grad = s.grad := rfl
@[simp] theorem State.setQueue_cyan (s : State) (q : Queue) (x : QueueSt) : (s.setQueue q x).cyan = s.cyan := rfl
@[simp] theorem State.setQueue_stash (s : State) (q : Queue) (x : QueueSt) : (s.setQueue q x).stash = s.stash := rfl
@[simp] theorem State.setQueue_tier (s : State) (q : Queue) (x : QueueSt) : (s.setQueue q x).tier = s.tier := rfl
@[simp] theorem State.setQueue_res (s : State) (q : Queue) (x : QueueSt) : (s.setQueue q x).res = s.res := rfl
@[simp] theorem State.setQueue_peer (s : State) (q : Queue) (x : QueueSt) : (s.setQueue q x).peer = s.peer := rfl
@[simp] theorem State.setQueue_out (s : State) (q : Queue) (x : QueueSt) : (s.setQueue q x).out = s.out := rfl
@[simp] theorem State.setQueue_pending (s : State) (q : Queue) (x : QueueSt) : (s.setQueue q x).pending = s.pending := rfl
@[simp] theorem State.setQueue_freeCtr (s : State) (q : Queue) (x : QueueSt) : (s.setQueue q x).freeCtr = s.freeCtr := rfl
@[simp] theorem State.setRun_pin (s : State) (q : Queue) (r : Option Run) : (s.setRun q r).pin = s.pin := rfl
@[simp] theorem State.setRun_live (s : State) (q : Queue) (r : Option Run) : (s.setRun q r).live = s.live := rfl
@[simp] theorem State.setRun_staged (s : State) (q : Queue) (r : Option Run) : (s.setRun q r).staged = s.staged := rfl
@[simp] theorem State.setRun_mirror (s : State) (q : Queue) (r : Option Run) : (s.setRun q r).mirror = s.mirror := rfl
@[simp] theorem State.setRun_stage (s : State) (q : Queue) (r : Option Run) : (s.setRun q r).stage = s.stage := rfl
@[simp] theorem State.setRun_quiesced (s : State) (q : Queue) (r : Option Run) : (s.setRun q r).quiesced = s.quiesced := rfl
@[simp] theorem State.setRun_mem (s : State) (q : Queue) (r : Option Run) : (s.setRun q r).mem = s.mem := rfl
@[simp] theorem State.setRun_badLines (s : State) (q : Queue) (r : Option Run) : (s.setRun q r).badLines = s.badLines := rfl
@[simp] theorem State.setRun_io (s : State) (q : Queue) (r : Option Run) : (s.setRun q r).io = s.io := rfl
@[simp] theorem State.setRun_jobs (s : State) (q : Queue) (r : Option Run) : (s.setRun q r).jobs = s.jobs := rfl
@[simp] theorem State.setRun_rings (s : State) (q : Queue) (r : Option Run) : (s.setRun q r).rings = s.rings := rfl
@[simp] theorem State.setRun_stops (s : State) (q : Queue) (r : Option Run) : (s.setRun q r).stops = s.stops := rfl
@[simp] theorem State.setRun_fab (s : State) (q : Queue) (r : Option Run) : (s.setRun q r).fab = s.fab := rfl
@[simp] theorem State.setRun_step (s : State) (q : Queue) (r : Option Run) : (s.setRun q r).step = s.step := rfl
@[simp] theorem State.setRun_fwd (s : State) (q : Queue) (r : Option Run) : (s.setRun q r).fwd = s.fwd := rfl
@[simp] theorem State.setRun_commit (s : State) (q : Queue) (r : Option Run) : (s.setRun q r).commit = s.commit := rfl
@[simp] theorem State.setRun_grad (s : State) (q : Queue) (r : Option Run) : (s.setRun q r).grad = s.grad := rfl
@[simp] theorem State.setRun_cyan (s : State) (q : Queue) (r : Option Run) : (s.setRun q r).cyan = s.cyan := rfl
@[simp] theorem State.setRun_stash (s : State) (q : Queue) (r : Option Run) : (s.setRun q r).stash = s.stash := rfl
@[simp] theorem State.setRun_tier (s : State) (q : Queue) (r : Option Run) : (s.setRun q r).tier = s.tier := rfl
@[simp] theorem State.setRun_res (s : State) (q : Queue) (r : Option Run) : (s.setRun q r).res = s.res := rfl
@[simp] theorem State.setRun_peer (s : State) (q : Queue) (r : Option Run) : (s.setRun q r).peer = s.peer := rfl
@[simp] theorem State.setRun_out (s : State) (q : Queue) (r : Option Run) : (s.setRun q r).out = s.out := rfl
@[simp] theorem State.setRun_pending (s : State) (q : Queue) (r : Option Run) : (s.setRun q r).pending = s.pending := rfl
@[simp] theorem State.setRun_freeCtr (s : State) (q : Queue) (r : Option Run) : (s.setRun q r).freeCtr = s.freeCtr := rfl
@[simp] theorem State.upd_pin (s : State) (o : Nat) (g : Word → Word) : (s.upd o g).pin = s.pin := rfl
@[simp] theorem State.upd_staged (s : State) (o : Nat) (g : Word → Word) : (s.upd o g).staged = s.staged := rfl
@[simp] theorem State.upd_mirror (s : State) (o : Nat) (g : Word → Word) : (s.upd o g).mirror = s.mirror := rfl
@[simp] theorem State.upd_stage (s : State) (o : Nat) (g : Word → Word) : (s.upd o g).stage = s.stage := rfl
@[simp] theorem State.upd_quiesced (s : State) (o : Nat) (g : Word → Word) : (s.upd o g).quiesced = s.quiesced := rfl
@[simp] theorem State.upd_mem (s : State) (o : Nat) (g : Word → Word) : (s.upd o g).mem = s.mem := rfl
@[simp] theorem State.upd_badLines (s : State) (o : Nat) (g : Word → Word) : (s.upd o g).badLines = s.badLines := rfl
@[simp] theorem State.upd_io (s : State) (o : Nat) (g : Word → Word) : (s.upd o g).io = s.io := rfl
@[simp] theorem State.upd_queues (s : State) (o : Nat) (g : Word → Word) : (s.upd o g).queues = s.queues := rfl
@[simp] theorem State.upd_jobs (s : State) (o : Nat) (g : Word → Word) : (s.upd o g).jobs = s.jobs := rfl
@[simp] theorem State.upd_rings (s : State) (o : Nat) (g : Word → Word) : (s.upd o g).rings = s.rings := rfl
@[simp] theorem State.upd_stops (s : State) (o : Nat) (g : Word → Word) : (s.upd o g).stops = s.stops := rfl
@[simp] theorem State.upd_fab (s : State) (o : Nat) (g : Word → Word) : (s.upd o g).fab = s.fab := rfl
@[simp] theorem State.upd_step (s : State) (o : Nat) (g : Word → Word) : (s.upd o g).step = s.step := rfl
@[simp] theorem State.upd_fwd (s : State) (o : Nat) (g : Word → Word) : (s.upd o g).fwd = s.fwd := rfl
@[simp] theorem State.upd_commit (s : State) (o : Nat) (g : Word → Word) : (s.upd o g).commit = s.commit := rfl
@[simp] theorem State.upd_grad (s : State) (o : Nat) (g : Word → Word) : (s.upd o g).grad = s.grad := rfl
@[simp] theorem State.upd_cyan (s : State) (o : Nat) (g : Word → Word) : (s.upd o g).cyan = s.cyan := rfl
@[simp] theorem State.upd_stash (s : State) (o : Nat) (g : Word → Word) : (s.upd o g).stash = s.stash := rfl
@[simp] theorem State.upd_tier (s : State) (o : Nat) (g : Word → Word) : (s.upd o g).tier = s.tier := rfl
@[simp] theorem State.upd_res (s : State) (o : Nat) (g : Word → Word) : (s.upd o g).res = s.res := rfl
@[simp] theorem State.upd_peer (s : State) (o : Nat) (g : Word → Word) : (s.upd o g).peer = s.peer := rfl
@[simp] theorem State.upd_out (s : State) (o : Nat) (g : Word → Word) : (s.upd o g).out = s.out := rfl
@[simp] theorem State.upd_pending (s : State) (o : Nat) (g : Word → Word) : (s.upd o g).pending = s.pending := rfl
@[simp] theorem State.upd_freeCtr (s : State) (o : Nat) (g : Word → Word) : (s.upd o g).freeCtr = s.freeCtr := rfl
@[simp] theorem State.setF_pin (s : State) (o hi lo v : Nat) : (s.setF o hi lo v).pin = s.pin := rfl
@[simp] theorem State.setF_staged (s : State) (o hi lo v : Nat) : (s.setF o hi lo v).staged = s.staged := rfl
@[simp] theorem State.setF_mirror (s : State) (o hi lo v : Nat) : (s.setF o hi lo v).mirror = s.mirror := rfl
@[simp] theorem State.setF_stage (s : State) (o hi lo v : Nat) : (s.setF o hi lo v).stage = s.stage := rfl
@[simp] theorem State.setF_quiesced (s : State) (o hi lo v : Nat) : (s.setF o hi lo v).quiesced = s.quiesced := rfl
@[simp] theorem State.setF_mem (s : State) (o hi lo v : Nat) : (s.setF o hi lo v).mem = s.mem := rfl
@[simp] theorem State.setF_badLines (s : State) (o hi lo v : Nat) : (s.setF o hi lo v).badLines = s.badLines := rfl
@[simp] theorem State.setF_io (s : State) (o hi lo v : Nat) : (s.setF o hi lo v).io = s.io := rfl
@[simp] theorem State.setF_queues (s : State) (o hi lo v : Nat) : (s.setF o hi lo v).queues = s.queues := rfl
@[simp] theorem State.setF_jobs (s : State) (o hi lo v : Nat) : (s.setF o hi lo v).jobs = s.jobs := rfl
@[simp] theorem State.setF_rings (s : State) (o hi lo v : Nat) : (s.setF o hi lo v).rings = s.rings := rfl
@[simp] theorem State.setF_stops (s : State) (o hi lo v : Nat) : (s.setF o hi lo v).stops = s.stops := rfl
@[simp] theorem State.setF_fab (s : State) (o hi lo v : Nat) : (s.setF o hi lo v).fab = s.fab := rfl
@[simp] theorem State.setF_step (s : State) (o hi lo v : Nat) : (s.setF o hi lo v).step = s.step := rfl
@[simp] theorem State.setF_fwd (s : State) (o hi lo v : Nat) : (s.setF o hi lo v).fwd = s.fwd := rfl
@[simp] theorem State.setF_commit (s : State) (o hi lo v : Nat) : (s.setF o hi lo v).commit = s.commit := rfl
@[simp] theorem State.setF_grad (s : State) (o hi lo v : Nat) : (s.setF o hi lo v).grad = s.grad := rfl
@[simp] theorem State.setF_cyan (s : State) (o hi lo v : Nat) : (s.setF o hi lo v).cyan = s.cyan := rfl
@[simp] theorem State.setF_stash (s : State) (o hi lo v : Nat) : (s.setF o hi lo v).stash = s.stash := rfl
@[simp] theorem State.setF_tier (s : State) (o hi lo v : Nat) : (s.setF o hi lo v).tier = s.tier := rfl
@[simp] theorem State.setF_res (s : State) (o hi lo v : Nat) : (s.setF o hi lo v).res = s.res := rfl
@[simp] theorem State.setF_peer (s : State) (o hi lo v : Nat) : (s.setF o hi lo v).peer = s.peer := rfl
@[simp] theorem State.setF_out (s : State) (o hi lo v : Nat) : (s.setF o hi lo v).out = s.out := rfl
@[simp] theorem State.setF_pending (s : State) (o hi lo v : Nat) : (s.setF o hi lo v).pending = s.pending := rfl
@[simp] theorem State.setF_freeCtr (s : State) (o hi lo v : Nat) : (s.setF o hi lo v).freeCtr = s.freeCtr := rfl
@[simp] theorem State.setB_pin (s : State) (o i : Nat) (b : Bool) : (s.setB o i b).pin = s.pin := rfl
@[simp] theorem State.setB_staged (s : State) (o i : Nat) (b : Bool) : (s.setB o i b).staged = s.staged := rfl
@[simp] theorem State.setB_mirror (s : State) (o i : Nat) (b : Bool) : (s.setB o i b).mirror = s.mirror := rfl
@[simp] theorem State.setB_stage (s : State) (o i : Nat) (b : Bool) : (s.setB o i b).stage = s.stage := rfl
@[simp] theorem State.setB_quiesced (s : State) (o i : Nat) (b : Bool) : (s.setB o i b).quiesced = s.quiesced := rfl
@[simp] theorem State.setB_mem (s : State) (o i : Nat) (b : Bool) : (s.setB o i b).mem = s.mem := rfl
@[simp] theorem State.setB_badLines (s : State) (o i : Nat) (b : Bool) : (s.setB o i b).badLines = s.badLines := rfl
@[simp] theorem State.setB_io (s : State) (o i : Nat) (b : Bool) : (s.setB o i b).io = s.io := rfl
@[simp] theorem State.setB_queues (s : State) (o i : Nat) (b : Bool) : (s.setB o i b).queues = s.queues := rfl
@[simp] theorem State.setB_jobs (s : State) (o i : Nat) (b : Bool) : (s.setB o i b).jobs = s.jobs := rfl
@[simp] theorem State.setB_rings (s : State) (o i : Nat) (b : Bool) : (s.setB o i b).rings = s.rings := rfl
@[simp] theorem State.setB_stops (s : State) (o i : Nat) (b : Bool) : (s.setB o i b).stops = s.stops := rfl
@[simp] theorem State.setB_fab (s : State) (o i : Nat) (b : Bool) : (s.setB o i b).fab = s.fab := rfl
@[simp] theorem State.setB_step (s : State) (o i : Nat) (b : Bool) : (s.setB o i b).step = s.step := rfl
@[simp] theorem State.setB_fwd (s : State) (o i : Nat) (b : Bool) : (s.setB o i b).fwd = s.fwd := rfl
@[simp] theorem State.setB_commit (s : State) (o i : Nat) (b : Bool) : (s.setB o i b).commit = s.commit := rfl
@[simp] theorem State.setB_grad (s : State) (o i : Nat) (b : Bool) : (s.setB o i b).grad = s.grad := rfl
@[simp] theorem State.setB_cyan (s : State) (o i : Nat) (b : Bool) : (s.setB o i b).cyan = s.cyan := rfl
@[simp] theorem State.setB_stash (s : State) (o i : Nat) (b : Bool) : (s.setB o i b).stash = s.stash := rfl
@[simp] theorem State.setB_tier (s : State) (o i : Nat) (b : Bool) : (s.setB o i b).tier = s.tier := rfl
@[simp] theorem State.setB_res (s : State) (o i : Nat) (b : Bool) : (s.setB o i b).res = s.res := rfl
@[simp] theorem State.setB_peer (s : State) (o i : Nat) (b : Bool) : (s.setB o i b).peer = s.peer := rfl
@[simp] theorem State.setB_out (s : State) (o i : Nat) (b : Bool) : (s.setB o i b).out = s.out := rfl
@[simp] theorem State.setB_pending (s : State) (o i : Nat) (b : Bool) : (s.setB o i b).pending = s.pending := rfl
@[simp] theorem State.setB_freeCtr (s : State) (o i : Nat) (b : Bool) : (s.setB o i b).freeCtr = s.freeCtr := rfl
@[simp] theorem State.count_pin (s : State) (o hi lo n : Nat) : (s.count o hi lo n).pin = s.pin := rfl
@[simp] theorem State.count_staged (s : State) (o hi lo n : Nat) : (s.count o hi lo n).staged = s.staged := rfl
@[simp] theorem State.count_mirror (s : State) (o hi lo n : Nat) : (s.count o hi lo n).mirror = s.mirror := rfl
@[simp] theorem State.count_stage (s : State) (o hi lo n : Nat) : (s.count o hi lo n).stage = s.stage := rfl
@[simp] theorem State.count_quiesced (s : State) (o hi lo n : Nat) : (s.count o hi lo n).quiesced = s.quiesced := rfl
@[simp] theorem State.count_mem (s : State) (o hi lo n : Nat) : (s.count o hi lo n).mem = s.mem := rfl
@[simp] theorem State.count_badLines (s : State) (o hi lo n : Nat) : (s.count o hi lo n).badLines = s.badLines := rfl
@[simp] theorem State.count_io (s : State) (o hi lo n : Nat) : (s.count o hi lo n).io = s.io := rfl
@[simp] theorem State.count_queues (s : State) (o hi lo n : Nat) : (s.count o hi lo n).queues = s.queues := rfl
@[simp] theorem State.count_jobs (s : State) (o hi lo n : Nat) : (s.count o hi lo n).jobs = s.jobs := rfl
@[simp] theorem State.count_rings (s : State) (o hi lo n : Nat) : (s.count o hi lo n).rings = s.rings := rfl
@[simp] theorem State.count_stops (s : State) (o hi lo n : Nat) : (s.count o hi lo n).stops = s.stops := rfl
@[simp] theorem State.count_fab (s : State) (o hi lo n : Nat) : (s.count o hi lo n).fab = s.fab := rfl
@[simp] theorem State.count_step (s : State) (o hi lo n : Nat) : (s.count o hi lo n).step = s.step := rfl
@[simp] theorem State.count_fwd (s : State) (o hi lo n : Nat) : (s.count o hi lo n).fwd = s.fwd := rfl
@[simp] theorem State.count_commit (s : State) (o hi lo n : Nat) : (s.count o hi lo n).commit = s.commit := rfl
@[simp] theorem State.count_grad (s : State) (o hi lo n : Nat) : (s.count o hi lo n).grad = s.grad := rfl
@[simp] theorem State.count_cyan (s : State) (o hi lo n : Nat) : (s.count o hi lo n).cyan = s.cyan := rfl
@[simp] theorem State.count_stash (s : State) (o hi lo n : Nat) : (s.count o hi lo n).stash = s.stash := rfl
@[simp] theorem State.count_tier (s : State) (o hi lo n : Nat) : (s.count o hi lo n).tier = s.tier := rfl
@[simp] theorem State.count_res (s : State) (o hi lo n : Nat) : (s.count o hi lo n).res = s.res := rfl
@[simp] theorem State.count_peer (s : State) (o hi lo n : Nat) : (s.count o hi lo n).peer = s.peer := rfl
@[simp] theorem State.count_out (s : State) (o hi lo n : Nat) : (s.count o hi lo n).out = s.out := rfl
@[simp] theorem State.count_pending (s : State) (o hi lo n : Nat) : (s.count o hi lo n).pending = s.pending := rfl
@[simp] theorem State.count_freeCtr (s : State) (o hi lo n : Nat) : (s.count o hi lo n).freeCtr = s.freeCtr := rfl
@[simp] theorem State.setPage_pin (s : State) (i : Nat) (p : Page) : (s.setPage i p).pin = s.pin := rfl
@[simp] theorem State.setPage_live (s : State) (i : Nat) (p : Page) : (s.setPage i p).live = s.live := rfl
@[simp] theorem State.setPage_staged (s : State) (i : Nat) (p : Page) : (s.setPage i p).staged = s.staged := rfl
@[simp] theorem State.setPage_mirror (s : State) (i : Nat) (p : Page) : (s.setPage i p).mirror = s.mirror := rfl
@[simp] theorem State.setPage_stage (s : State) (i : Nat) (p : Page) : (s.setPage i p).stage = s.stage := rfl
@[simp] theorem State.setPage_quiesced (s : State) (i : Nat) (p : Page) : (s.setPage i p).quiesced = s.quiesced := rfl
@[simp] theorem State.setPage_mem (s : State) (i : Nat) (p : Page) : (s.setPage i p).mem = s.mem := rfl
@[simp] theorem State.setPage_badLines (s : State) (i : Nat) (p : Page) : (s.setPage i p).badLines = s.badLines := rfl
@[simp] theorem State.setPage_io (s : State) (i : Nat) (p : Page) : (s.setPage i p).io = s.io := rfl
@[simp] theorem State.setPage_queues (s : State) (i : Nat) (p : Page) : (s.setPage i p).queues = s.queues := rfl
@[simp] theorem State.setPage_jobs (s : State) (i : Nat) (p : Page) : (s.setPage i p).jobs = s.jobs := rfl
@[simp] theorem State.setPage_rings (s : State) (i : Nat) (p : Page) : (s.setPage i p).rings = s.rings := rfl
@[simp] theorem State.setPage_stops (s : State) (i : Nat) (p : Page) : (s.setPage i p).stops = s.stops := rfl
@[simp] theorem State.setPage_fab (s : State) (i : Nat) (p : Page) : (s.setPage i p).fab = s.fab := rfl
@[simp] theorem State.setPage_step (s : State) (i : Nat) (p : Page) : (s.setPage i p).step = s.step := rfl
@[simp] theorem State.setPage_fwd (s : State) (i : Nat) (p : Page) : (s.setPage i p).fwd = s.fwd := rfl
@[simp] theorem State.setPage_commit (s : State) (i : Nat) (p : Page) : (s.setPage i p).commit = s.commit := rfl
@[simp] theorem State.setPage_grad (s : State) (i : Nat) (p : Page) : (s.setPage i p).grad = s.grad := rfl
@[simp] theorem State.setPage_cyan (s : State) (i : Nat) (p : Page) : (s.setPage i p).cyan = s.cyan := rfl
@[simp] theorem State.setPage_stash (s : State) (i : Nat) (p : Page) : (s.setPage i p).stash = s.stash := rfl
@[simp] theorem State.setPage_res (s : State) (i : Nat) (p : Page) : (s.setPage i p).res = s.res := rfl
@[simp] theorem State.setPage_peer (s : State) (i : Nat) (p : Page) : (s.setPage i p).peer = s.peer := rfl
@[simp] theorem State.setPage_out (s : State) (i : Nat) (p : Page) : (s.setPage i p).out = s.out := rfl
@[simp] theorem State.setPage_pending (s : State) (i : Nat) (p : Page) : (s.setPage i p).pending = s.pending := rfl
@[simp] theorem State.setPage_freeCtr (s : State) (i : Nat) (p : Page) : (s.setPage i p).freeCtr = s.freeCtr := rfl
@[simp] theorem State.mapUnit_pin (s : State) (u p : Nat) : (s.mapUnit u p).pin = s.pin := rfl
@[simp] theorem State.mapUnit_live (s : State) (u p : Nat) : (s.mapUnit u p).live = s.live := rfl
@[simp] theorem State.mapUnit_staged (s : State) (u p : Nat) : (s.mapUnit u p).staged = s.staged := rfl
@[simp] theorem State.mapUnit_mirror (s : State) (u p : Nat) : (s.mapUnit u p).mirror = s.mirror := rfl
@[simp] theorem State.mapUnit_stage (s : State) (u p : Nat) : (s.mapUnit u p).stage = s.stage := rfl
@[simp] theorem State.mapUnit_quiesced (s : State) (u p : Nat) : (s.mapUnit u p).quiesced = s.quiesced := rfl
@[simp] theorem State.mapUnit_mem (s : State) (u p : Nat) : (s.mapUnit u p).mem = s.mem := rfl
@[simp] theorem State.mapUnit_badLines (s : State) (u p : Nat) : (s.mapUnit u p).badLines = s.badLines := rfl
@[simp] theorem State.mapUnit_io (s : State) (u p : Nat) : (s.mapUnit u p).io = s.io := rfl
@[simp] theorem State.mapUnit_queues (s : State) (u p : Nat) : (s.mapUnit u p).queues = s.queues := rfl
@[simp] theorem State.mapUnit_jobs (s : State) (u p : Nat) : (s.mapUnit u p).jobs = s.jobs := rfl
@[simp] theorem State.mapUnit_rings (s : State) (u p : Nat) : (s.mapUnit u p).rings = s.rings := rfl
@[simp] theorem State.mapUnit_stops (s : State) (u p : Nat) : (s.mapUnit u p).stops = s.stops := rfl
@[simp] theorem State.mapUnit_fab (s : State) (u p : Nat) : (s.mapUnit u p).fab = s.fab := rfl
@[simp] theorem State.mapUnit_step (s : State) (u p : Nat) : (s.mapUnit u p).step = s.step := rfl
@[simp] theorem State.mapUnit_fwd (s : State) (u p : Nat) : (s.mapUnit u p).fwd = s.fwd := rfl
@[simp] theorem State.mapUnit_commit (s : State) (u p : Nat) : (s.mapUnit u p).commit = s.commit := rfl
@[simp] theorem State.mapUnit_grad (s : State) (u p : Nat) : (s.mapUnit u p).grad = s.grad := rfl
@[simp] theorem State.mapUnit_cyan (s : State) (u p : Nat) : (s.mapUnit u p).cyan = s.cyan := rfl
@[simp] theorem State.mapUnit_stash (s : State) (u p : Nat) : (s.mapUnit u p).stash = s.stash := rfl
@[simp] theorem State.mapUnit_peer (s : State) (u p : Nat) : (s.mapUnit u p).peer = s.peer := rfl
@[simp] theorem State.mapUnit_out (s : State) (u p : Nat) : (s.mapUnit u p).out = s.out := rfl
@[simp] theorem State.mapUnit_pending (s : State) (u p : Nat) : (s.mapUnit u p).pending = s.pending := rfl
@[simp] theorem State.mapUnit_freeCtr (s : State) (u p : Nat) : (s.mapUnit u p).freeCtr = s.freeCtr := rfl
@[simp] theorem State.setBlock_pin (s : State) (k : Nat) (b : Block) : (s.setBlock k b).pin = s.pin := rfl
@[simp] theorem State.setBlock_live (s : State) (k : Nat) (b : Block) : (s.setBlock k b).live = s.live := rfl
@[simp] theorem State.setBlock_staged (s : State) (k : Nat) (b : Block) : (s.setBlock k b).staged = s.staged := rfl
@[simp] theorem State.setBlock_mirror (s : State) (k : Nat) (b : Block) : (s.setBlock k b).mirror = s.mirror := rfl
@[simp] theorem State.setBlock_stage (s : State) (k : Nat) (b : Block) : (s.setBlock k b).stage = s.stage := rfl
@[simp] theorem State.setBlock_quiesced (s : State) (k : Nat) (b : Block) : (s.setBlock k b).quiesced = s.quiesced := rfl
@[simp] theorem State.setBlock_mem (s : State) (k : Nat) (b : Block) : (s.setBlock k b).mem = s.mem := rfl
@[simp] theorem State.setBlock_badLines (s : State) (k : Nat) (b : Block) : (s.setBlock k b).badLines = s.badLines := rfl
@[simp] theorem State.setBlock_io (s : State) (k : Nat) (b : Block) : (s.setBlock k b).io = s.io := rfl
@[simp] theorem State.setBlock_queues (s : State) (k : Nat) (b : Block) : (s.setBlock k b).queues = s.queues := rfl
@[simp] theorem State.setBlock_jobs (s : State) (k : Nat) (b : Block) : (s.setBlock k b).jobs = s.jobs := rfl
@[simp] theorem State.setBlock_rings (s : State) (k : Nat) (b : Block) : (s.setBlock k b).rings = s.rings := rfl
@[simp] theorem State.setBlock_stops (s : State) (k : Nat) (b : Block) : (s.setBlock k b).stops = s.stops := rfl
@[simp] theorem State.setBlock_fab (s : State) (k : Nat) (b : Block) : (s.setBlock k b).fab = s.fab := rfl
@[simp] theorem State.setBlock_step (s : State) (k : Nat) (b : Block) : (s.setBlock k b).step = s.step := rfl
@[simp] theorem State.setBlock_fwd (s : State) (k : Nat) (b : Block) : (s.setBlock k b).fwd = s.fwd := rfl
@[simp] theorem State.setBlock_commit (s : State) (k : Nat) (b : Block) : (s.setBlock k b).commit = s.commit := rfl
@[simp] theorem State.setBlock_grad (s : State) (k : Nat) (b : Block) : (s.setBlock k b).grad = s.grad := rfl
@[simp] theorem State.setBlock_cyan (s : State) (k : Nat) (b : Block) : (s.setBlock k b).cyan = s.cyan := rfl
@[simp] theorem State.setBlock_stash (s : State) (k : Nat) (b : Block) : (s.setBlock k b).stash = s.stash := rfl
@[simp] theorem State.setBlock_res (s : State) (k : Nat) (b : Block) : (s.setBlock k b).res = s.res := rfl
@[simp] theorem State.setBlock_peer (s : State) (k : Nat) (b : Block) : (s.setBlock k b).peer = s.peer := rfl
@[simp] theorem State.setBlock_out (s : State) (k : Nat) (b : Block) : (s.setBlock k b).out = s.out := rfl
@[simp] theorem State.setBlock_pending (s : State) (k : Nat) (b : Block) : (s.setBlock k b).pending = s.pending := rfl
@[simp] theorem State.setBlock_freeCtr (s : State) (k : Nat) (b : Block) : (s.setBlock k b).freeCtr = s.freeCtr := rfl

/-! A message sent, and channel requests, touch the ports alone -/

/-- A frame sent by a port touches the ports and what goes out. -/
theorem State.txNew_frame (s : State) (p : Nat) (f : Frame) (m : Option PeerMsg) :
    s.txNew p f m = { s with peer := (s.txNew p f m).peer, out := (s.txNew p f m).out } := rfl

/-- Steps of which each touches two fields alone touch these alone one after the other. -/
theorem State.fold_frame {α : Type} (g : State → α → State) (h : ∀ s x, g s x = { s with peer := (g s x).peer, out := (g s x).out }) (xs : List α) :
    ∀ s : State, xs.foldl g s = { s with peer := (xs.foldl g s).peer, out := (xs.foldl g s).out } := by
  induction xs with
  | nil => exact fun _ => rfl
  | cons x xs ih => intro s; rw [List.foldl_cons, ih, h s x]

/-- Steps of which each keeps a property keep it one after the other. -/
theorem State.fold_keeps {α β : Type} (g : State → α → State) (v : State → β) (h : ∀ s x, v (g s x) = v s) (xs : List α) :
    ∀ s : State, v (xs.foldl g s) = v s := by
  induction xs with
  | nil => exact fun _ => rfl
  | cons x xs ih => intro s; rw [List.foldl_cons, ih, h]

/-- A message sent touches the ports, what goes out and the counter of free values. -/
theorem State.send_frame (s : State) (m : PeerMsg) :
    s.send m = { s with peer := (s.send m).peer, out := (s.send m).out, freeCtr := (s.send m).freeCtr } := by
  unfold State.send
  dsimp only
  split
  · rfl
  · rw [State.fold_frame _ (fun s p => State.txNew_frame s p _ _)]
    rfl

/-- A message sent stands in the outbox. -/
@[simp] theorem State.send_out (s : State) (m : PeerMsg) : (s.send m).out.peer = s.out.peer ++ [m] := by
  unfold State.send
  dsimp only
  split
  · rfl
  · exact State.fold_keeps
      (fun (s : State) p => s.txNew p (s.msgFrame m ((s.destsOf m).filter (fun d => s.route d = some p)) (s.port p).lanes.length) (some m))
      (fun s => s.out.peer) (fun _ _ => rfl) _ _

@[simp] theorem State.send_adverts (s : State) (m : PeerMsg) : (s.send m).peer.adverts = s.peer.adverts := by
  unfold State.send
  dsimp only
  split
  · rfl
  · exact State.fold_keeps
      (fun (s : State) p => s.txNew p (s.msgFrame m ((s.destsOf m).filter (fun d => s.route d = some p)) (s.port p).lanes.length) (some m))
      (fun s => s.peer.adverts) (fun _ _ => rfl) _ _

/-- Channel requests touch the tags of the ports and what goes out. -/
theorem State.chanGo_frame (s : State) (rs : List (Nat × Option (List Byte))) :
    s.chanGo rs = { s with io := { s.io with chTags := (s.chanGo rs).io.chTags }, out := { s.out with chan := (s.chanGo rs).out.chan } } := rfl

/-- A write under R359 touches memory, its bad lines, the tags of the channel ports and what goes out. -/
theorem State.put_frame (s : State) (a : Nat) (bs : List Byte) :
    s.put a bs = { s with mem := (s.put a bs).mem, badLines := (s.put a bs).badLines, io := (s.put a bs).io, out := (s.put a bs).out } := by
  unfold State.put
  split <;> rfl

@[simp] theorem State.send_pin (s : State) (m : PeerMsg) : (s.send m).pin = s.pin := by rw [State.send_frame]
@[simp] theorem State.send_live (s : State) (m : PeerMsg) : (s.send m).live = s.live := by rw [State.send_frame]
@[simp] theorem State.send_staged (s : State) (m : PeerMsg) : (s.send m).staged = s.staged := by rw [State.send_frame]
@[simp] theorem State.send_mirror (s : State) (m : PeerMsg) : (s.send m).mirror = s.mirror := by rw [State.send_frame]
@[simp] theorem State.send_stage (s : State) (m : PeerMsg) : (s.send m).stage = s.stage := by rw [State.send_frame]
@[simp] theorem State.send_quiesced (s : State) (m : PeerMsg) : (s.send m).quiesced = s.quiesced := by rw [State.send_frame]
@[simp] theorem State.send_mem (s : State) (m : PeerMsg) : (s.send m).mem = s.mem := by rw [State.send_frame]
@[simp] theorem State.send_badLines (s : State) (m : PeerMsg) : (s.send m).badLines = s.badLines := by rw [State.send_frame]
@[simp] theorem State.send_io (s : State) (m : PeerMsg) : (s.send m).io = s.io := by rw [State.send_frame]
@[simp] theorem State.send_queues (s : State) (m : PeerMsg) : (s.send m).queues = s.queues := by rw [State.send_frame]
@[simp] theorem State.send_jobs (s : State) (m : PeerMsg) : (s.send m).jobs = s.jobs := by rw [State.send_frame]
@[simp] theorem State.send_rings (s : State) (m : PeerMsg) : (s.send m).rings = s.rings := by rw [State.send_frame]
@[simp] theorem State.send_stops (s : State) (m : PeerMsg) : (s.send m).stops = s.stops := by rw [State.send_frame]
@[simp] theorem State.send_fab (s : State) (m : PeerMsg) : (s.send m).fab = s.fab := by rw [State.send_frame]
@[simp] theorem State.send_step (s : State) (m : PeerMsg) : (s.send m).step = s.step := by rw [State.send_frame]
@[simp] theorem State.send_fwd (s : State) (m : PeerMsg) : (s.send m).fwd = s.fwd := by rw [State.send_frame]
@[simp] theorem State.send_commit (s : State) (m : PeerMsg) : (s.send m).commit = s.commit := by rw [State.send_frame]
@[simp] theorem State.send_grad (s : State) (m : PeerMsg) : (s.send m).grad = s.grad := by rw [State.send_frame]
@[simp] theorem State.send_cyan (s : State) (m : PeerMsg) : (s.send m).cyan = s.cyan := by rw [State.send_frame]
@[simp] theorem State.send_stash (s : State) (m : PeerMsg) : (s.send m).stash = s.stash := by rw [State.send_frame]
@[simp] theorem State.send_tier (s : State) (m : PeerMsg) : (s.send m).tier = s.tier := by rw [State.send_frame]
@[simp] theorem State.send_res (s : State) (m : PeerMsg) : (s.send m).res = s.res := by rw [State.send_frame]
@[simp] theorem State.send_pending (s : State) (m : PeerMsg) : (s.send m).pending = s.pending := by rw [State.send_frame]
@[simp] theorem State.chanPut_pin (s : State) (a n : Nat) : (s.chanPut a n).pin = s.pin := rfl
@[simp] theorem State.chanPut_live (s : State) (a n : Nat) : (s.chanPut a n).live = s.live := rfl
@[simp] theorem State.chanPut_staged (s : State) (a n : Nat) : (s.chanPut a n).staged = s.staged := rfl
@[simp] theorem State.chanPut_mirror (s : State) (a n : Nat) : (s.chanPut a n).mirror = s.mirror := rfl
@[simp] theorem State.chanPut_stage (s : State) (a n : Nat) : (s.chanPut a n).stage = s.stage := rfl
@[simp] theorem State.chanPut_quiesced (s : State) (a n : Nat) : (s.chanPut a n).quiesced = s.quiesced := rfl
@[simp] theorem State.chanPut_mem (s : State) (a n : Nat) : (s.chanPut a n).mem = s.mem := rfl
@[simp] theorem State.chanPut_badLines (s : State) (a n : Nat) : (s.chanPut a n).badLines = s.badLines := rfl
@[simp] theorem State.chanPut_queues (s : State) (a n : Nat) : (s.chanPut a n).queues = s.queues := rfl
@[simp] theorem State.chanPut_jobs (s : State) (a n : Nat) : (s.chanPut a n).jobs = s.jobs := rfl
@[simp] theorem State.chanPut_rings (s : State) (a n : Nat) : (s.chanPut a n).rings = s.rings := rfl
@[simp] theorem State.chanPut_stops (s : State) (a n : Nat) : (s.chanPut a n).stops = s.stops := rfl
@[simp] theorem State.chanPut_fab (s : State) (a n : Nat) : (s.chanPut a n).fab = s.fab := rfl
@[simp] theorem State.chanPut_step (s : State) (a n : Nat) : (s.chanPut a n).step = s.step := rfl
@[simp] theorem State.chanPut_fwd (s : State) (a n : Nat) : (s.chanPut a n).fwd = s.fwd := rfl
@[simp] theorem State.chanPut_commit (s : State) (a n : Nat) : (s.chanPut a n).commit = s.commit := rfl
@[simp] theorem State.chanPut_grad (s : State) (a n : Nat) : (s.chanPut a n).grad = s.grad := rfl
@[simp] theorem State.chanPut_cyan (s : State) (a n : Nat) : (s.chanPut a n).cyan = s.cyan := rfl
@[simp] theorem State.chanPut_stash (s : State) (a n : Nat) : (s.chanPut a n).stash = s.stash := rfl
@[simp] theorem State.chanPut_tier (s : State) (a n : Nat) : (s.chanPut a n).tier = s.tier := rfl
@[simp] theorem State.chanPut_res (s : State) (a n : Nat) : (s.chanPut a n).res = s.res := rfl
@[simp] theorem State.chanPut_peer (s : State) (a n : Nat) : (s.chanPut a n).peer = s.peer := rfl
@[simp] theorem State.chanPut_pending (s : State) (a n : Nat) : (s.chanPut a n).pending = s.pending := rfl
@[simp] theorem State.chanPut_freeCtr (s : State) (a n : Nat) : (s.chanPut a n).freeCtr = s.freeCtr := rfl
@[simp] theorem State.put_pin (s : State) (a : Nat) (bs : List Byte) : (s.put a bs).pin = s.pin := by rw [State.put_frame]
@[simp] theorem State.put_live (s : State) (a : Nat) (bs : List Byte) : (s.put a bs).live = s.live := by rw [State.put_frame]
@[simp] theorem State.put_staged (s : State) (a : Nat) (bs : List Byte) : (s.put a bs).staged = s.staged := by rw [State.put_frame]
@[simp] theorem State.put_mirror (s : State) (a : Nat) (bs : List Byte) : (s.put a bs).mirror = s.mirror := by rw [State.put_frame]
@[simp] theorem State.put_stage (s : State) (a : Nat) (bs : List Byte) : (s.put a bs).stage = s.stage := by rw [State.put_frame]
@[simp] theorem State.put_quiesced (s : State) (a : Nat) (bs : List Byte) : (s.put a bs).quiesced = s.quiesced := by rw [State.put_frame]
@[simp] theorem State.put_queues (s : State) (a : Nat) (bs : List Byte) : (s.put a bs).queues = s.queues := by rw [State.put_frame]
@[simp] theorem State.put_jobs (s : State) (a : Nat) (bs : List Byte) : (s.put a bs).jobs = s.jobs := by rw [State.put_frame]
@[simp] theorem State.put_rings (s : State) (a : Nat) (bs : List Byte) : (s.put a bs).rings = s.rings := by rw [State.put_frame]
@[simp] theorem State.put_stops (s : State) (a : Nat) (bs : List Byte) : (s.put a bs).stops = s.stops := by rw [State.put_frame]
@[simp] theorem State.put_fab (s : State) (a : Nat) (bs : List Byte) : (s.put a bs).fab = s.fab := by rw [State.put_frame]
@[simp] theorem State.put_step (s : State) (a : Nat) (bs : List Byte) : (s.put a bs).step = s.step := by rw [State.put_frame]
@[simp] theorem State.put_fwd (s : State) (a : Nat) (bs : List Byte) : (s.put a bs).fwd = s.fwd := by rw [State.put_frame]
@[simp] theorem State.put_commit (s : State) (a : Nat) (bs : List Byte) : (s.put a bs).commit = s.commit := by rw [State.put_frame]
@[simp] theorem State.put_grad (s : State) (a : Nat) (bs : List Byte) : (s.put a bs).grad = s.grad := by rw [State.put_frame]
@[simp] theorem State.put_cyan (s : State) (a : Nat) (bs : List Byte) : (s.put a bs).cyan = s.cyan := by rw [State.put_frame]
@[simp] theorem State.put_stash (s : State) (a : Nat) (bs : List Byte) : (s.put a bs).stash = s.stash := by rw [State.put_frame]
@[simp] theorem State.put_tier (s : State) (a : Nat) (bs : List Byte) : (s.put a bs).tier = s.tier := by rw [State.put_frame]
@[simp] theorem State.put_res (s : State) (a : Nat) (bs : List Byte) : (s.put a bs).res = s.res := by rw [State.put_frame]
@[simp] theorem State.put_peer (s : State) (a : Nat) (bs : List Byte) : (s.put a bs).peer = s.peer := by rw [State.put_frame]
@[simp] theorem State.put_pending (s : State) (a : Nat) (bs : List Byte) : (s.put a bs).pending = s.pending := by rw [State.put_frame]
@[simp] theorem State.put_freeCtr (s : State) (a : Nat) (bs : List Byte) : (s.put a bs).freeCtr = s.freeCtr := by rw [State.put_frame]

/-! The canonical form -/

theorem State.wf_iff (s : State) : s.wf = true ↔ fwf regDflt s.live = true ∧ fwf regDflt s.staged = true ∧ fwf memDflt s.mem = true ∧
    fwf pageDflt s.tier.pages = true ∧ fwf unitDflt s.tier.units = true ∧ fwf blockDflt s.tier.blocks = true := by
  simp [State.wf, and_assoc]

theorem State.wf_live {s : State} (h : s.wf = true) : fwf regDflt s.live = true := ((s.wf_iff).1 h).1
theorem State.wf_staged {s : State} (h : s.wf = true) : fwf regDflt s.staged = true := ((s.wf_iff).1 h).2.1
theorem State.wf_mem {s : State} (h : s.wf = true) : fwf memDflt s.mem = true := ((s.wf_iff).1 h).2.2.1
theorem State.live_sorted {s : State} (h : s.wf = true) : fsorted s.live = true := ((fwf_iff _ _).1 (State.wf_live h)).1
theorem State.staged_sorted {s : State} (h : s.wf = true) : fsorted s.staged = true := ((fwf_iff _ _).1 (State.wf_staged h)).1
theorem State.mem_sorted {s : State} (h : s.wf = true) : fsorted s.mem = true := ((fwf_iff _ _).1 (State.wf_mem h)).1

/-- The form depends on the sparse maps alone. -/
theorem State.wf_of_eq {s t : State} (h : s.wf = true) (h1 : t.live = s.live) (h2 : t.staged = s.staged) (h3 : t.mem = s.mem)
    (h4 : t.tier.pages = s.tier.pages) (h5 : t.tier.units = s.tier.units) (h6 : t.tier.blocks = s.tier.blocks) : t.wf = true := by
  rw [State.wf_iff] at h ⊢
  rw [h1, h2, h3, h4, h5, h6]
  exact h

/-- Every state brought into canonical form is in it. -/
theorem State.canon_wf (s : State) : s.canon.wf = true := by
  rw [State.wf_iff]
  exact ⟨fcanon_wf _ _, fcanon_wf _ _, fcanon_wf _ _, fcanon_wf _ _, fcanon_wf _ _, fcanon_wf _ _⟩

/-- A state in canonical form stays as it is. -/
theorem State.canon_of_wf {s : State} (h : s.wf = true) : s.canon = s := by
  obtain ⟨h1, h2, h3, h4, h5, h6⟩ := (State.wf_iff s).1 h
  unfold State.canon
  rw [fcanon_of_wf h1, fcanon_of_wf h2, fcanon_of_wf h3, fcanon_of_wf h4, fcanon_of_wf h5, fcanon_of_wf h6]

theorem State.wf_setReg {s : State} (o : Nat) (w : Word) (h : s.wf = true) : (s.setReg o w).wf = true := by
  rw [State.wf_iff] at h ⊢
  exact ⟨fset_wf _ _ h.1, h.2⟩

theorem State.wf_setStg {s : State} (o : Nat) (w : Word) (h : s.wf = true) : (s.setStg o w).wf = true := by
  rw [State.wf_iff] at h ⊢
  exact ⟨h.1, fset_wf _ _ h.2.1, h.2.2⟩

theorem State.wf_store {s : State} (a : Nat) (bs : List Byte) (h : s.wf = true) : (s.store a bs).wf = true := by
  rw [State.wf_iff] at h ⊢
  exact ⟨h.1, h.2.1, fsetRange_wf _ _ h.2.2.1, h.2.2.2⟩

theorem State.wf_setPage {s : State} (i : Nat) (p : Page) (h : s.wf = true) : (s.setPage i p).wf = true := by
  rw [State.wf_iff] at h ⊢
  exact ⟨h.1, h.2.1, h.2.2.1, fset_wf _ _ h.2.2.2.1, h.2.2.2.2⟩

theorem State.wf_mapUnit {s : State} (u p : Nat) (h : s.wf = true) : (s.mapUnit u p).wf = true := by
  rw [State.wf_iff] at h ⊢
  exact ⟨h.1, h.2.1, h.2.2.1, h.2.2.2.1, fset_wf _ _ h.2.2.2.2.1, h.2.2.2.2.2⟩

theorem State.wf_setBlock {s : State} (k : Nat) (b : Block) (h : s.wf = true) : (s.setBlock k b).wf = true := by
  rw [State.wf_iff] at h ⊢
  exact ⟨h.1, h.2.1, h.2.2.1, h.2.2.2.1, h.2.2.2.2.1, fset_wf _ _ h.2.2.2.2.2⟩

theorem State.wf_upd {s : State} (o : Nat) (g : Word → Word) (h : s.wf = true) : (s.upd o g).wf = true := State.wf_setReg _ _ h
theorem State.wf_setF {s : State} (o hi lo v : Nat) (h : s.wf = true) : (s.setF o hi lo v).wf = true := State.wf_setReg _ _ h
theorem State.wf_setB {s : State} (o i : Nat) (b : Bool) (h : s.wf = true) : (s.setB o i b).wf = true := State.wf_setReg _ _ h
theorem State.wf_count {s : State} (o hi lo n : Nat) (h : s.wf = true) : (s.count o hi lo n).wf = true := State.wf_setReg _ _ h
theorem State.wf_send {s : State} (m : PeerMsg) (h : s.wf = true) : (s.send m).wf = true :=
  State.wf_of_eq h (by simp) (by simp) (by simp) (by simp) (by simp) (by simp)
theorem State.wf_respond {s : State} (r : Resp) (h : s.wf = true) : (s.respond r).wf = true := h
theorem State.wf_setRun {s : State} (q : Queue) (r : Option Run) (h : s.wf = true) : (s.setRun q r).wf = true := h

theorem State.wf_setStale {s : State} (ks : List Nat) (h : s.wf = true) : (s.setStale ks).wf = true := by
  unfold State.setStale
  induction ks generalizing s with
  | nil => exact h
  | cons k t ih => exact ih (State.wf_setB _ _ _ h)

theorem State.wf_put {s : State} (a : Nat) (bs : List Byte) (h : s.wf = true) : (s.put a bs).wf = true := by
  unfold State.put
  split
  · exact h
  · exact State.wf_of_eq (State.wf_store a _ h) rfl rfl rfl rfl rfl rfl

theorem State.wf_logFault {s : State} (e : FaultEv) (h : s.wf = true) : (s.logFault e).wf = true :=
  State.wf_count _ _ _ _ (State.wf_setF _ _ _ _ (State.wf_put _ _ h))

theorem State.wf_fault {s : State} (e : FaultEv) (h : s.wf = true) : (s.fault e).wf = true := by
  unfold State.fault
  have h := State.wf_logFault e h
  dsimp only
  split
  · exact h
  · split
    · exact State.wf_setB _ _ _ h
    · exact State.wf_setReg _ _ (State.wf_setReg _ _ (State.wf_setReg _ _ h))

/-! Reading after writing -/

theorem State.reg_setReg {s : State} (h : s.wf = true) (o p : Nat) (w : Word) :
    (s.setReg o w).reg p = if p = o then w else s.reg p := fget_fset (State.live_sorted h) o w p

theorem State.stg_setStg {s : State} (h : s.wf = true) (o p : Nat) (w : Word) :
    (s.setStg o w).stg p = if p = o then w else s.stg p := fget_fset (State.staged_sorted h) o w p

theorem State.reg_upd {s : State} (h : s.wf = true) (o p : Nat) (g : Word → Word) :
    (s.upd o g).reg p = if p = o then g (s.reg o) else s.reg p := State.reg_setReg h o p _

theorem State.reg_setF {s : State} (h : s.wf = true) (o hi lo v p : Nat) :
    (s.setF o hi lo v).reg p = if p = o then setFld (s.reg o) hi lo v else s.reg p := State.reg_setReg h o p _

theorem State.reg_setB {s : State} (h : s.wf = true) (o i : Nat) (b : Bool) (p : Nat) :
    (s.setB o i b).reg p = if p = o then setBit (s.reg o) i b else s.reg p := State.reg_setReg h o p _

theorem State.reg_count {s : State} (h : s.wf = true) (o hi lo n p : Nat) :
    (s.count o hi lo n).reg p = if p = o then satAdd (s.reg o) hi lo n else s.reg p := State.reg_setReg h o p _

@[simp] theorem State.reg_store (s : State) (a : Nat) (bs : List Byte) (p : Nat) : (s.store a bs).reg p = s.reg p := rfl
@[simp] theorem State.reg_setStg (s : State) (o : Nat) (w : Word) (p : Nat) : (s.setStg o w).reg p = s.reg p := rfl
@[simp] theorem State.reg_send (s : State) (m : PeerMsg) (p : Nat) : (s.send m).reg p = s.reg p := by rw [State.send_frame]; rfl
@[simp] theorem State.reg_respond (s : State) (r : Resp) (p : Nat) : (s.respond r).reg p = s.reg p := rfl
@[simp] theorem State.reg_setRun (s : State) (q : Queue) (r : Option Run) (p : Nat) : (s.setRun q r).reg p = s.reg p := rfl
@[simp] theorem State.byte_setReg (s : State) (o : Nat) (w : Word) (a : Nat) : (s.setReg o w).byte a = s.byte a := rfl
@[simp] theorem State.byte_setStg (s : State) (o : Nat) (w : Word) (a : Nat) : (s.setStg o w).byte a = s.byte a := rfl
@[simp] theorem State.byte_send (s : State) (m : PeerMsg) (a : Nat) : (s.send m).byte a = s.byte a := by rw [State.send_frame]; rfl
@[simp] theorem State.byte_setRun (s : State) (q : Queue) (r : Option Run) (a : Nat) : (s.setRun q r).byte a = s.byte a := rfl

/-- One byte of memory after a store. -/
theorem State.byte_store {s : State} (h : s.wf = true) (a : Nat) (bs : List Byte) (i : Nat) :
    (s.store a bs).byte i = if a ≤ i ∧ i < a + bs.length then nth (memDflt i) bs (i - a) else s.byte i :=
  fget_fsetRange (State.mem_sorted h) a bs i

/-- A byte outside what a store covers is as it was. -/
theorem State.byte_store_other {s : State} (h : s.wf = true) (a : Nat) (bs : List Byte) (i : Nat) (hi : i < a ∨ a + bs.length ≤ i) :
    (s.store a bs).byte i = s.byte i := by
  rw [State.byte_store h, if_neg (by omega)]

/-! Outcomes -/

theorem State.flipDue_alive {s : State} (h : s.flipDue = true) : s.alive = true := by
  unfold State.flipDue at h
  simp only [Bool.and_eq_true] at h
  exact h.1.1.1

/-- Nothing is due: the boundary has nothing left to settle. -/
theorem State.settle_calm {s : State} (h : s.calm = true) : s.settle = s := by
  unfold State.calm at h
  simp only [Bool.and_eq_true, Bool.not_eq_true'] at h
  simp [State.settle, h.1.1, h.1.2, h.2]

/-- A command of the engine whose conditions hold. -/
theorem State.workNow_quiet {s : State} (g : State → State) (h : s.quiet = true) : s.workNow g = .next (s.kept (g s)) := by
  unfold State.quiet at h
  simp only [Bool.and_eq_true, Bool.not_eq_true', decide_eq_true_eq] at h
  have h2 : ¬ (s.pin.phase < 6 ∨ s.pin.halted = true) := by
    rintro (hc | hc)
    · omega
    · rw [h.1.2] at hc; exact Bool.noConfusion hc
  unfold State.workNow State.work
  rw [if_neg h2]
  simp only [State.done, State.settle_calm h.2]
  rfl

/-- A command of a port whose conditions hold. -/
theorem State.portNow_open {s : State} (g : State → State) (h : s.portOpen = true) : s.portNow g = .next (s.kept (g s)) := by
  unfold State.portOpen at h
  simp only [Bool.and_eq_true, decide_eq_true_eq] at h
  have h0 : ¬ s.pin.phase = 0 := by omega
  have h2 : ¬ s.pin.phase < 2 := by omega
  unfold State.portNow State.act
  rw [if_neg h0]
  simp only [State.done, State.settle_calm h.2, if_neg h2]
  rfl

/-- A command of the block out of reset. -/
theorem State.act_on {s : State} (g : State → State) (h : s.pin.phase ≠ 0) : s.act g = .next (s.kept (g s)) := by
  unfold State.act
  rw [if_neg h]
  rfl

/-- A state with its maps in canonical form and the queue as it was is kept as it is. -/
theorem State.kept_of_wf (s : State) {x : State} (h : x.wf = true) (hp : x.pending = s.pending) : s.kept x = x := by
  unfold State.kept
  rw [State.canon_of_wf h, ← hp]

theorem State.kept_wf (s x : State) : (s.kept x).wf = true := State.wf_of_eq x.canon_wf rfl rfl rfl rfl rfl rfl

@[simp] theorem State.kept_pending (s x : State) : (s.kept x).pending = s.pending := rfl

end Sys2Proof.Machine
end

