-- ==== Sys2Proof/Laws/Exec.lean ====
section
/-! SUPPORT. What kind of outcome each command has, said once: the engine's own work, a register port, what acts from outside, a pin. -/
namespace Sys2Proof.Machine

open Sys2Proof.Safety

theorem exec_work {c : Instr} (h : engineWork c = true) (s : State) : ∃ g, exec c s = s.work g := by
  cases c
  all_goals first
    | exact Bool.noConfusion h
    | exact ⟨_, rfl⟩

theorem exec_port {c : Instr} (h : portCommand c = true) (s : State) : ∃ g, exec c s = s.portNow g := by
  cases c
  all_goals first
    | exact Bool.noConfusion h
    | (simp only [exec, execDoorbell, execQCfgWrite, execCheck, execApply, execCancel, execLoad, execQuiesce, execFabSwap, execMxSwap,
        execSvMir0Read, execSvImgWr, execImgClear, execImgCommit, execSvReset, execRegisterWrite]; exact ⟨_, rfl⟩)

theorem exec_outside {c : Instr} (h : outside c = true) (s : State) : ∃ g, exec c s = s.act g := by
  cases c
  all_goals first
    | exact Bool.noConfusion h
    | exact ⟨_, rfl⟩

theorem exec_pin {c : Instr} (h : actsInReset c = true) (s : State) : ∃ g, exec c s = s.done g := by
  cases c
  all_goals first
    | exact Bool.noConfusion h
    | (simp only [exec, execSupplyWarnAssert, execSupplyWarnClear, execSupplyGoodFall, execRstNAssert, execResetSequenceStart, execWsBypass,
        execWsExtest, execWsIntest, execWsMbist]; exact ⟨_, rfl⟩)

/-- What a command leaves is sound, and the waiting commands are as they were. -/
theorem State.done_kept {s t : State} {g : State → State} (h : s.done g = .next t) : t.wf = true ∧ t.pending = s.pending := by
  unfold State.done at h
  injection h with h
  subst h
  exact ⟨State.kept_wf s (g s), rfl⟩

theorem State.act_kept {s t : State} {g : State → State} (hs : s.wf = true) (h : s.act g = .next t) : t.wf = true ∧ t.pending = s.pending := by
  unfold State.act at h
  split at h
  · injection h with h
    subst h
    exact ⟨hs, rfl⟩
  · exact State.done_kept h

theorem State.work_kept {s t : State} {g : State → State} (hs : s.wf = true) (h : s.work g = .next t) : t.wf = true ∧ t.pending = s.pending := by
  unfold State.work at h
  split at h
  · injection h with h
    subst h
    exact ⟨hs, rfl⟩
  · exact State.done_kept h

end Sys2Proof.Machine
end

