-- ==== Sys2Proof/Laws/Streams.lean ====
section
/-! SUPPORT. The rings of the streams: what an update of a ring leaves alone, a ring read after a write, and what the shared operations over
rings can change. -/
namespace Sys2Proof.Machine

theorem nth_setNth {α : Type} (d v : α) (l : List α) (k i : Nat) :
    nth d (setNth l k v) i = if i = k ∧ k < l.length then v else nth d l i := by
  induction l generalizing k i with
  | nil => simp [setNth]
  | cons a t ih => cases k <;> cases i <;> simp [setNth, nth, ih]

@[simp] theorem length_setNth {α : Type} (l : List α) (k : Nat) (v : α) : (setNth l k v).length = l.length := by
  induction l generalizing k with
  | nil => rfl
  | cons a t ih => cases k <;> simp [setNth, ih]

/-! Fields that an update does not touch -/

@[simp] theorem State.setRing_pin (s : State) (k : Nat) (r : Ring) : (s.setRing k r).pin = s.pin := rfl
@[simp] theorem State.setRing_live (s : State) (k : Nat) (r : Ring) : (s.setRing k r).live = s.live := rfl
@[simp] theorem State.setRing_staged (s : State) (k : Nat) (r : Ring) : (s.setRing k r).staged = s.staged := rfl
@[simp] theorem State.setRing_mirror (s : State) (k : Nat) (r : Ring) : (s.setRing k r).mirror = s.mirror := rfl
@[simp] theorem State.setRing_stage (s : State) (k : Nat) (r : Ring) : (s.setRing k r).stage = s.stage := rfl
@[simp] theorem State.setRing_quiesced (s : State) (k : Nat) (r : Ring) : (s.setRing k r).quiesced = s.quiesced := rfl
@[simp] theorem State.setRing_mem (s : State) (k : Nat) (r : Ring) : (s.setRing k r).mem = s.mem := rfl
@[simp] theorem State.setRing_badLines (s : State) (k : Nat) (r : Ring) : (s.setRing k r).badLines = s.badLines := rfl
@[simp] theorem State.setRing_io (s : State) (k : Nat) (r : Ring) : (s.setRing k r).io = s.io := rfl
@[simp] theorem State.setRing_queues (s : State) (k : Nat) (r : Ring) : (s.setRing k r).queues = s.queues := rfl
@[simp] theorem State.setRing_jobs (s : State) (k : Nat) (r : Ring) : (s.setRing k r).jobs = s.jobs := rfl
@[simp] theorem State.setRing_stops (s : State) (k : Nat) (r : Ring) : (s.setRing k r).stops = s.stops := rfl
@[simp] theorem State.setRing_fab (s : State) (k : Nat) (r : Ring) : (s.setRing k r).fab = s.fab := rfl
@[simp] theorem State.setRing_step (s : State) (k : Nat) (r : Ring) : (s.setRing k r).step = s.step := rfl
@[simp] theorem State.setRing_fwd (s : State) (k : Nat) (r : Ring) : (s.setRing k r).fwd = s.fwd := rfl
@[simp] theorem State.setRing_commit (s : State) (k : Nat) (r : Ring) : (s.setRing k r).commit = s.commit := rfl
@[simp] theorem State.setRing_grad (s : State) (k : Nat) (r : Ring) : (s.setRing k r).grad = s.grad := rfl
@[simp] theorem State.setRing_cyan (s : State) (k : Nat) (r : Ring) : (s.setRing k r).cyan = s.cyan := rfl
@[simp] theorem State.setRing_stash (s : State) (k : Nat) (r : Ring) : (s.setRing k r).stash = s.stash := rfl
@[simp] theorem State.setRing_tier (s : State) (k : Nat) (r : Ring) : (s.setRing k r).tier = s.tier := rfl
@[simp] theorem State.setRing_res (s : State) (k : Nat) (r : Ring) : (s.setRing k r).res = s.res := rfl
@[simp] theorem State.setRing_peer (s : State) (k : Nat) (r : Ring) : (s.setRing k r).peer = s.peer := rfl
@[simp] theorem State.setRing_out (s : State) (k : Nat) (r : Ring) : (s.setRing k r).out = s.out := rfl
@[simp] theorem State.setRing_pending (s : State) (k : Nat) (r : Ring) : (s.setRing k r).pending = s.pending := rfl
@[simp] theorem State.setRing_freeCtr (s : State) (k : Nat) (r : Ring) : (s.setRing k r).freeCtr = s.freeCtr := rfl

/-! A ring read after a write -/

theorem State.ring_setRing {s : State} {k : Nat} (h : k < s.rings.length) (r : Ring) (i : Nat) :
    (s.setRing k r).ring i = if i = k then r else s.ring i := by
  simp [State.ring, State.setRing, nth_setNth, h]

@[simp] theorem State.setRing_length (s : State) (k : Nat) (r : Ring) : (s.setRing k r).rings.length = s.rings.length := length_setNth ..

/-! What the operations over rings can change: rings alone. A state is `s` with other rings, as many as before. -/

/-- t is s with other rings, as many as before. -/
def State.onlyRings (s t : State) : Prop := ∃ rs, t = { s with rings := rs } ∧ rs.length = s.rings.length

theorem State.onlyRings_refl (s : State) : s.onlyRings s := ⟨s.rings, rfl, rfl⟩

theorem State.onlyRings_trans {s t u : State} (h : s.onlyRings t) (h' : t.onlyRings u) : s.onlyRings u := by
  obtain ⟨rs, rfl, hl⟩ := h
  obtain ⟨rs', rfl, hl'⟩ := h'
  exact ⟨rs', rfl, hl'.trans hl⟩

theorem State.setRing_onlyRings (s : State) (k : Nat) (r : Ring) : s.onlyRings (s.setRing k r) := ⟨_, rfl, length_setNth ..⟩

theorem State.foldl_onlyRings {α : Type} (g : State → α → State) (h : ∀ (s : State) a, s.onlyRings (g s a)) (l : List α) (s : State) :
    s.onlyRings (l.foldl g s) := by
  induction l generalizing s with
  | nil => exact s.onlyRings_refl
  | cons a t ih => exact State.onlyRings_trans (h s a) (ih _)

theorem State.moveRing_onlyRings (s : State) (k : Nat) (r : Ring) : s.onlyRings (s.moveRing k r) := by
  refine State.onlyRings_trans (State.foldl_onlyRings _ ?_ _ _) (State.setRing_onlyRings ..)
  intro s i
  dsimp only
  split
  · exact s.onlyRings_refl
  · exact s.setRing_onlyRings ..

/-- A ring on which something has been done holds what it was given, is the one of its engine that was active last (R252), and has made progress if a
pointer has advanced, or had before (R248). -/
theorem State.ring_moveRing {s : State} {k : Nat} (h : k < s.rings.length) (r : Ring) :
    (s.moveRing k r).ring k = { r with moved := (s.ring k).moved || r.beyond (s.ring k), last := true } := by
  obtain ⟨rs, he, hl⟩ := State.foldl_onlyRings (fun s i => if i = k then s else s.setRing i { s.ring i with last := false })
    (fun s i => by
      dsimp only
      split
      · exact s.onlyRings_refl
      · exact s.setRing_onlyRings ..) (s.ringsOf (engineOf k)) s
  rw [State.moveRing, State.ring_setRing (by rw [he]; simpa [hl] using h), if_pos rfl]

theorem State.takeAll_onlyRings (s : State) (desc tile : Nat) (g : List GRing) : s.onlyRings (s.takeAll desc tile g) := by
  refine State.foldl_onlyRings _ (fun s x => ?_) g s
  dsimp only
  split
  · exact s.onlyRings_refl
  · exact s.moveRing_onlyRings ..

theorem State.doneAll_onlyRings (s : State) (desc tile : Nat) (g : List GRing) : s.onlyRings (s.doneAll desc tile g) := by
  refine State.foldl_onlyRings _ (fun s x => ?_) g s
  dsimp only
  split
  · exact s.onlyRings_refl
  · exact s.moveRing_onlyRings ..

theorem State.dropStale_onlyRings (s : State) (desc : Nat) (g : List GRing) : s.onlyRings (s.dropStale desc g) := by
  refine State.foldl_onlyRings _ (fun s x => ?_) g s
  dsimp only
  split
  · exact s.onlyRings_refl
  · exact s.moveRing_onlyRings ..

theorem State.startRings_onlyRings (s : State) (q : Queue) (seq : Nat) (g : List GRing) : s.onlyRings (s.startRings q seq g) := by
  refine State.foldl_onlyRings _ (fun s x => ?_) g s
  dsimp only
  split
  · exact s.onlyRings_refl
  · exact s.setRing_onlyRings ..

theorem State.starve_onlyRings (s : State) (desc tile : Nat) (g : List GRing) : s.onlyRings (s.starve desc tile g) := by
  refine State.foldl_onlyRings _ (fun s x => ?_) g s
  dsimp only
  split
  · exact s.onlyRings_refl
  · exact s.setRing_onlyRings ..

end Sys2Proof.Machine
end

