-- ==== Sys2Proof/WellFormed.lean ====
section
/-! DEFINITION. Which commands are well formed: the operands lie in the ranges that the ports and the fields carrying
them have. A command that is not well formed is one that they cannot carry. -/
namespace Sys2Proof

/-- A step number fits its 32 bits (R72, R74). -/
def stepOk (n : Nat) : Bool := n < 2 ^ 32

/-- An INST_ID fits its eight bits (R389). -/
def instOk (n : Nat) : Bool := n < 256

/-- A register offset: 64-bit words in the 1 MiB window (R13, R391). -/
def offsetOk (o : Nat) : Bool := o < 2 ^ 20 && o % 8 = 0

/-- The operands of a command lie in the ranges of the ports that carry them. -/
def wellFormed : Instr → Bool
  | .registerWrite _ o _ => offsetOk o
  | .hmRead sub op addr beats tag => sub < 32 && op < 4 && op != 1 && addr < 2 ^ 48 && addr % 64 = 0 && 1 ≤ beats && beats ≤ 4 && tag < 256
  | .hmWrite sub addr beats tag data mask =>
    sub < 32 && addr < 2 ^ 48 && addr % 64 = 0 && 1 ≤ beats && beats ≤ 4 && tag < 256 &&
      data.length = 64 * beats && mask.length = 64 * beats
  | .chReadReturn _ data _ _ _ => data.length = 256
  | .chPortFail p => p < 64
  | .beatSyncMsg m => instOk m.src && m.arrive.length = 4
  | .commitVote src step _ _ _ _ => instOk src && stepOk step
  | .commitDecision step _ f _ _ => stepOk step && f < 2 ^ 48
  | .journalQuery src step => instOk src && stepOk step
  | .journalAnswer src step _ f => instOk src && stepOk step && f < 2 ^ 48
  | .reducePartial src step _ => instOk src && stepOk step
  | .reduceTotal step _ _ => stepOk step
  | .mcSlot src _ step _ _ data => instOk src && stepOk step && data.length ≤ 65536
  | .peerFrame p _ => p < 8
  | .peerPortUp p peer locked => p < 8 && instOk peer && locked < 512
  | .laneSwap p l => p < 8 && l < 9
  | .linkCalibration p l => p < 8 && l < 9
  | .ringClaim k => k < 56
  | .streamStop _ k _ _ => k < 32
  | .streamStopEnd k => k < 32
  | .streamWatchdog k => k < 32
  | .tierTimeout p => p < 2 ^ 23
  | .promotionStart p => p < 2 ^ 23
  | .bridgeReadStatus ch opid _ _ data _ => ch < 8 && opid < 256 && data.length ≤ 16384
  | .bridgeProgramStatus ch opid _ => ch < 8 && opid < 256
  | .bridgeEraseStatus ch opid _ => ch < 8 && opid < 256
  | .bridgeTimeout ch opid => ch < 8 && opid < 256
  | .bridgeSetFeaturesStatus ch opid => ch < 8 && opid < 256
  | .laneError p kind cell _ => p < 264 && 1 ≤ kind && kind ≤ 6 && cell < 80
  | .rowError p kind => p < 132 && 1 ≤ kind && kind ≤ 4
  | .sramDoubleBit a _ | .sramBankRetire (.failedAgain a) => a.bank < 66 && a.addr < 2 ^ 20
  | .sramBankRetire (.corrected b) => b < 66
  | .tempSample c => c < 1024
  | .resetSequenceStart st => instOk st.instId && st.feedId < 16 && st.imageSrc < 4
  | .roundOpen src _ step => instOk src && stepOk step
  | .slotAck src _ ofs => instOk src && ofs < 2 ^ 48
  | .mcDetach x => instOk x
  | .detachNotice src => instOk src
  | .abandonNotice src => instOk src
  | .roundOpenRefused src => instOk src
  | .mirrorData src snapId step _ _ => instOk src && snapId < 2 ^ 32 && stepOk step
  | .sealMsg src snapId => instOk src && snapId < 2 ^ 32
  | .mirrorTileRequest src snapId _ => instOk src && snapId < 2 ^ 32
  | .mirrorTileAnswer src snapId _ _ => instOk src && snapId < 2 ^ 32
  | .mirrorLossReport src snapId => instOk src && snapId < 2 ^ 32
  | .tierMirrorPage src page _ data => instOk src && page < 2 ^ 23 && data.length = 2 ^ 21
  | .pageFetchRequest src page _ => instOk src && page < 2 ^ 23
  | .pageFetchAnswer src page _ => instOk src && page < 2 ^ 23
  | .pageFetchTimeout page => page < 2 ^ 23
  | .digestRequest src snapId first last => instOk src && snapId < 2 ^ 32 && first < 65536 && last < 65536
  | .digestAnswer src snapId step _ => instOk src && snapId < 2 ^ 32 && stepOk step
  | .garbageCollection lun => lun < 256
  | .barrier _ | .gather | .gatherSparse | .fold | .foldSparse | .closeStep | .update | .updateSparse | .matrix | .commit | .discard
  | .reshard | .emitCyan | .snapshot | .restore | .stashPut | .stashGet | .prefetch | .demote | .keep | .release | .clear | .refetch
  | .slateUpdate | .fence | .doorbell _ _ | .qCfgWrite _ _ | .queueRingZeroed _ | .check _ | .checkComplete | .apply _ | .applyTakeEffect
  | .groupApply | .groupApplyTimeout | .cancel _ | .load _ | .quiesce _ | .fabSwap _ | .mxSwap _ | .svMir0Read _ | .svImgWr _ _
  | .imgClear _ _ | .imgCommit _ _ | .imgProgramDone | .svReset _ _ | .chWriteResponse _ _ _ | .chReadTimeout _ _ | .beatBoundary _
  | .syncFault | .beatRelock | .masterLost | .commitVoteTimeout | .commitFlip | .commitInDoubt | .inDoubtTimeout | .groupBarrierTimeout _
  | .normTimeout | .catchupStart | .catchupAbandon | .laggingTimeout | .restoreTableTimeout | .restoreConfirm | .tileComplete _ | .eviction
  | .wearLevelling | .refresh | .patrol | .checkpoint | .scrubSlice _ | .telemetrySlice | .greyStarved _ | .laneSpareLoaded
  | .sequencerHalt | .sequencerCorrected | .supplyWarnAssert | .supplyWarnClear | .amberHoldExpire | .amberVerifyDone _ | .supplyGoodFall
  | .tempInvalid | .rstNAssert | .imagePhase _ | .stackInitDone | .flashRebuildDone _ | .fabricPhase | .wsBypass | .wsExtest | .wsIntest
  | .wsMbist | .variantReloadDone _ | .sramBankCopyDone => true

end Sys2Proof
end

