-- ==== Sys2Proof/Tests/Slice0.lean ====
section
/-! SUPPORT. The model's own tests: small states, ill-formed commands refused, and for every statement with hypotheses states and
operands that meet them. -/
namespace Sys2Proof.Tests

open Sys2Proof.Machine Sys2Proof.Safety

set_option linter.unusedVariables false
set_option Elab.async false

/-- READY after the reset sequence, with nothing configured. -/
def tReady : State := { State.reset with pin := { State.reset.pin with phase := 6 } }
/-- A record's run with an all-zero body. -/
def tRun (seq opc : Nat) : Run :=
  { seq := seq, opc := opc, tag := 0, body := List.replicate 64 0#8, args := [], step := 0, banks := [], desc := 0, tile := 0, latched := none
    rows := [], copy := [], behind := [], phase := 0, issued := false, t := Tally.zero, ext := 0, best := false, began := 0, gated := 0
    bound := false, aborting := false, taps := [], info := [], unread := [] }
/-- A queue enabled with 64 entries from SEQ 0, its ring zeroed. -/
def tQueue (s : State) (q : Queue) (posted done : Nat) : State :=
  (((s.setF (oQCfg (qIdx q)) 12 8 6).setB (oQCfg (qIdx q)) 0 true).setB (oQStat (qIdx q)) 0 true).setReg (oQDoneSeq (qIdx q))
    (BitVec.ofNat 64 (2 ^ 32 * posted + done))
/-- A queue whose only posted command runs. -/
def tRunning (s : State) (q : Queue) (r : Run) : State := (tQueue s q r.seq (r.seq - 1)).setRun q (some r)
/-- A queue whose only posted record waits at its head: SEQ 0. -/
def tRecord (s : State) (q : Queue) (body : List Byte) : State := (tQueue s q 0 0xFFFFFFFF).store (s.recAddr q 0) body
/-- The register map with a value in one register. -/
def tWith (o hi lo v : Nat) : State := tReady.setF o hi lo v
/-- The staging state set. -/
def tStage (n : Nat) : State := tReady.setF oStageResult 3 0 n
/-- The bytes of an image without sections. -/
def tImage : List Byte :=
  let b := leBytes 2 3 ++ leBytes 2 0 ++ leBytes 2 0xFFFF ++ [0xFF#8, 1#8] ++ leBytes 8 7 ++ List.replicate 32 0#8
  leBytes 4 0x31495A4B ++ leBytes 2 1 ++ leBytes 2 0 ++ leBytes 4 64 ++ leBytes 4 (crc32 b).toNat ++ b
/-- The image buffer filled with these words. -/
def tBuffer (ws : List Word) : State := { tReady with pin := { tReady.pin with image := ws } }
/-- A stack of 4 GiB, and host credits. -/
def tStack : State :=
  let s := tReady.setF oTierStat 63 47 2048
  { s with io := { s.io with credits := List.replicate 32 (64, 128) } }
/-- The first line of every member of the populated region: 64 bytes. -/
def tData (n : Nat) : List Byte := (List.range n).map (BitVec.ofNat 8)
/-- A beat-sync message of a member. -/
def tMsg (src master beat : Nat) : BeatMsg :=
  ⟨src, beat, some master, 16, 16, none, ⟨0, 0, 0, 0, false, 0, 0⟩, ⟨0, 0, 0, 0, false, 0, 0⟩, false, List.replicate 4 ⟨false, 0⟩, true⟩
/-- The coordinator of a group of n + 1. -/
def tCoord (n : Nat) : State := tReady.setReg oCommitGroup (BitVec.ofNat 64 (2 ^ 40 * n))
/-- A member of a group of two whose coordinator is instance 1. -/
def tMember : State :=
  { tReady.setReg oCommitGroup 0x0001010000000000#64 with peer := { tReady.peer with adverts := [tMsg 1 1 0] } }
/-- A running COMMIT of step 1 in a phase of COMMIT_STATE. -/
def tCommit (s : State) (phase : Nat) : State :=
  (tRunning s .uq { tRun 1 0x33 with step := 1, phase := 2 }).setF oCommitState 31 28 phase
/-- The run of that COMMIT. -/
def tCommitRun : Run := { tRun 1 0x33 with step := 1, phase := 2 }
/-- A layout map of one set, instances 0 and 1, and one entry from a source: descriptor 9, one row of 128 KW16 elements. -/
def tMap (src : Nat) : List Byte :=
  let h := List.replicate 6 0#8 ++ leBytes 2 1 ++ leBytes 4 1 ++ List.replicate 4 0#8 ++ leBytes 2 7 ++ List.replicate 46 0#8
  let e := leBytes 8 (2 ^ 56 * src + 2 ^ 32 * 9 + 128) ++ leBytes 8 0 ++ leBytes 8 (2 ^ 32 + 128) ++ leBytes 8 0
  h ++ (3#8 :: List.replicate 31 0#8) ++ e
/-- That map live, and Cyan buffers of 2 MiB; B is built, A serves. -/
def tCyan (src : Nat) : State :=
  let s := (tReady.store 0x2A200000 (tMap src)).setF oLayoutCheck 63 48 7
  (((s.setF oCyanBase 47 21 0x1000).setF oCyanGeom 15 0 1).setF oCyanGeom 47 21 0x4000000).setB oProfileWork 17 true
/-- Buffer B in a state of the round of map 7 and step 3. -/
def tRound (src st : Nat) : State :=
  let s := (((tCyan src).setF oCyanStatb 15 12 st).setF oCyanStatb 31 16 7).setF oCyanStatb 63 32 3
  { s with cyan := { s.cyan with b := ⟨[⟨src, 256, 0, [], false⟩], true, true, 0⟩ } }
/-- A RESHARD that has sent to receiver 1 and waits. -/
def tEmit : State :=
  let s := (tRunning (tCyan 0) .sq { tRun 1 0x40 with step := 3 }).setB oPwrStat 1 true
  { s with cyan := { s.cyan with bound := some (3, true, [(9, 0)]), boundMap := tMap 0, receivers := [⟨1, true, 9, false, false⟩]
                                 ring := [⟨0, 0, [1]⟩] }
           jobs := [⟨.sq, 1, 9, 0, 0, [], 0, [], [], 0, 0, false⟩], pin := { s.pin with hotStop := true } }
/-- A catch-up of receiver 1. -/
def tCatch (running : Bool) : Catchup := ⟨1, 5, false, [(0, 0)], [], 3, tMap 0, [], false, running, false, 0⟩
/-- A snapshot record of a descriptor. -/
def tRec (d : Nat) : SnapRecord := ⟨d, d, d, 0#64, List.replicate 64 0#8, [], false⟩
/-- A snapshot with one tile of a descriptor. -/
def tSnap (sealed : Bool) : Snap := ⟨4, 2, sealed, false, [tRec 9], [⟨⟨9, 0⟩, [1#8], crc32c [1#8], 0⟩], 1, sealed.toNat⟩
/-- A mirror store with a snapshot in half 1. -/
def tMirror (sealed : Bool) : State :=
  let s := tReady.setF oSnapCfg 31 16 1
  { s with res := { s.res with mirHalves := [none, some (tSnap sealed)] } }
/-- A partner, instance 5. -/
def tPartner : State := (tReady.setB oSnapCfg 55 true).setF oSnapCfg 63 56 5
/-- A RESTORE of descriptor 9 that runs, from the partner or not. -/
def tRestRun (partner : Bool) : Run :=
  { tRun 1 0x43 with body := List.replicate 12 0#8 ++ leBytes 2 9 ++ leBytes 2 9 ++ leBytes 2 9 ++ leBytes 2 0 ++ leBytes 1 (if partner then 2 else 0) ++ List.replicate 43 0#8 }
/-- What it holds. -/
def tRest : RestoreSt := ⟨5, 4, 9, 9, 9, 0, none, [], [], false⟩
/-- The state in which it waits for the tables. -/
def tRestore (partner : Bool) : State :=
  let s := tRunning tPartner .sq (tRestRun partner)
  { s with res := { s.res with restore := some tRest } }
/-- A digest table of descriptor 9. -/
def tTable (d : BitVec 32) : DigestTable := ⟨tRec 9, [some d]⟩
/-- A restore that is not confirmed, with the partner's tables. -/
def tUnconf (d : BitVec 32) : State :=
  let s := tPartner.setB oRestoreStat 31 true
  { s with res := { s.res with restore := some { tRest with tables := some [tTable d] }, halves := [some (tSnap true), none] } }
/-- Port 7 up on some lanes. -/
def tPort (lanes : List Nat) (spare : Option Nat) : State :=
  let s := tReady.setB (oPlStat 7) 0 true
  s.setPort 7 { s.port 7 with lanes := lanes, spare := spare }
/-- A frame of a class for instance 0. -/
def tFrame (cls : Nat) : Frame := ⟨cls, 1, 0, [0], 0, 0, 0xFF, [], none, none⟩
/-- The words of 16 bytes that some bytes spell. -/
def tPieces : Nat → List Byte → List (BitVec 128)
  | 0, _ => []
  | n + 1, bs => BitVec.ofNat 128 (ofLe (bs.take 16)) :: tPieces n (bs.drop 16)
/-- Every fourth word. -/
def tEvery : Nat → List (BitVec 128) → List (BitVec 128)
  | 0, _ => []
  | n + 1, ws => nth 0#128 ws 0 :: tEvery n (ws.drop 4)
/-- The words of a frame on lanes 0 to 3, markers and all. -/
def tWords (f : Frame) : List (List (BitVec 128)) :=
  (List.range 4).map (fun l => marker l 0 0 :: scramble l (tEvery 49 ((tPieces 196 (frameBody f 4 ++ frameTrailer f 4)).drop l)))
/-- A SLATE_UPDATE of descriptor 9 under way: two tiles. -/
def tSlate : Run := { tRun 1 0x47 with desc := 9, latched := some [0x100004000#64, 0#64, 0#64, 0#64, 0#64, 0#64, 0#64, 0#64] }
/-- The rings of engine 30 in use by the command of SEQ 1. -/
def tRings (s : State) : State := [48, 49, 50].foldl (fun s k => s.setRing k { s.ring k with depth := 2, user := 2 ^ 32 * 3 + 2 }) s
/-- The state in which that command runs. -/
def tSlateAt (r : Run) : State := tRings (tRunning tReady .sq r)
/-- A tile of it in flight. -/
def tJob (tile : Nat) : Job := ⟨.sq, 1, 9, tile, 0, [0x100004000#64, 0#64, 0#64, 0#64, 0#64, 0#64, 0#64, 0#64], 0, [], [], 0, 0, false⟩
/-- 16 tiered pages, frames from 5 on free. -/
def tTier : State :=
  let s := (tPartner.setF oTierMap 22 0 16).setF oTierStat 63 47 8
  { s with tier := { s.tier with free := [5, 6] } }
/-- Page 3 in a state. -/
def tPage (st : PageState) : Page := { Page.none with st := st }
/-- The bytes of a page. -/
def tPageData : List Byte := List.replicate (2 ^ 21) 1#8
/-- A SLATE_UPDATE whose source lies in page 3. -/
def tTiered : Run := { tSlate with latched := some [0x100004000#64, 0#64, 0x10000600000#64, 0#64, 0#64, 0#64, 0#64, 0#64] }
/-- It runs while the partner's data of page 3 are awaited; the source ring has an entry to fill. -/
def tFetched : State :=
  let s := tRings (tRunning tTier .sq tTiered)
  { s.setRing 48 { s.ring 48 with entries := [⟨9, 0, 2, 0, 0, 0, false, 2 ^ 32 * 3 + 2, false⟩] } with tier := { s.tier with pages := [(3, tPage .fetching)] } }
/-- What the streams of a command work on. -/
def tWork (s : State) (r : Run) : StreamWork :=
  (s.streamWork r).getD ⟨0, 0, ⟨0, fun _ _ => [], fun _ _ => []⟩, [], fun _ _ => true, fun k => ⟨0, k⟩⟩
/-- The streams of a command work on that, where they work. -/
theorem tWork_eq (s : State) (r : Run) (h : (s.streamWork r).isSome = true) : s.streamWork r = some (tWork s r) := by
  unfold tWork; cases hw : s.streamWork r with
  | some w => rfl
  | none => rw [hw] at h; cases h
/-- One flash channel of one LUN with 100 blocks of 1,024 pages. -/
def tFlash : State := (((tTier.setF oFlashGeom 63 60 1).setF oFlashGeom 59 56 1).setF oFlashGeom 53 40 99).setF oFlashGeom 39 30 1023
/-- A bridge operation on channel 0 with number 7, of block 70, page 0. -/
def tOp (kind : Nat) (use : OpUse) : BridgeOp := ⟨0, 7, kind, ⟨0, 0, 0, 70, 0⟩, use, 0, false, 0, [], ⟨0, 0, 0#32, 0#32, 0⟩⟩
/-- That operation outstanding. -/
def tBridge (o : BridgeOp) : State := { tFlash with tier := { tFlash.tier with ops := [o] } }
/-- The data of a unit and its spare record. -/
def tUnit : List Byte := List.replicate 16384 1#8
/-- A bit-stream of one variant without streams, and one probe program. -/
def tTvd : Tvd := ⟨[⟨0, 1, [], [], [], [], false⟩], [], [⟨0, 5, 1, 1, 0#64, 0#64, 0#64⟩], 1#64⟩
/-- Descriptor 9: one stamped row of 128 KW16 elements with a Slate copy and an accumulator. -/
def tDesc : List Byte :=
  leBytes 8 0x100000080 ++ leBytes 8 0x0F8000000FF2FF00 ++ leBytes 8 0x10000C0000000 ++ leBytes 16 0 ++ leBytes 8 0xC0600000 ++ leBytes 16 0
/-- READY with that bit-stream and descriptor, and a stack of 4 GiB without tiers. -/
def tRes : State :=
  let s := (((tReady.setF oTierMap 48 32 2048).setF oTierStat 63 47 2048).setF oFabStat 23 12 256).setF oMxStat 23 12 128
  { s.store 576 tDesc with fab := { s.fab with resident := tTvd } }
/-- A record with SEQ 0: an opcode and fields (first byte, value). -/
def tBody (opc : Nat) (fs : List (Nat × Nat)) : List Byte := leBytes 64 (fs.foldl (fun n f => n + f.2 * 2 ^ (8 * f.1)) opc)
/-- That record at the head of a queue of some state. -/
def tHead (s : State) (q : Queue) (opc : Nat) (fs : List (Nat × Nat)) : State := tRecord s q (tBody opc fs)
/-- A stash of 2 MiB at 0xD0000000 whose layer 3 has one head of one code a token. -/
def tStash : State :=
  ((tRes.setF oStashRegion 47 21 1664).setF oStashRegion 15 0 1).store (layerAddr 3) (leBytes 8 1 ++ leBytes 8 0xD0000000 ++ leBytes 8 0x2000 ++ leBytes 8 0)
/-- What holds of the four queues holds of every queue. -/
theorem forall_queue {P : Queue → Prop} (h : P .gq ∧ P .aq ∧ P .uq ∧ P .sq) : ∀ q, P q
  | .gq => h.1
  | .aq => h.2.1
  | .uq => h.2.2.1
  | .sq => h.2.2.2
/-- The tables that a snapshot holds of that descriptor. -/
theorem tables_eq : (tSnap true).tablesOf tRest.first tRest.last = [tTable (crc32c [1#8])] := by decide +kernel
/-- An optional value that meets a condition. -/
theorem opt_some {α : Type} {x : Option α} {p : α → Prop} [DecidablePred p] (h : x.any (fun a => decide (p a)) = true) :
    ∃ a, x = some a ∧ p a := by
  cases x with
  | none => simp at h
  | some a => exact ⟨a, rfl, by simpa using h⟩

/-! One ill-formed command for each check: all are refused, and a well-formed neighbour is not. -/

/-- Register ports, host memory ports, channel ports (R13, R391, R396 to R402). -/
theorem test_wellFormed_ports : [Instr.registerWrite .hcp 4 0#64, .registerWrite .svp 0x100000 0#64, .hmRead 32 0 0 1 0, .hmRead 0 1 0 1 0,
    .hmRead 0 4 0 1 0, .hmRead 0 0 32 1 0, .hmRead 0 0 (2 ^ 48) 1 0, .hmRead 0 0 0 0 0, .hmRead 0 0 0 5 0, .hmRead 0 0 0 1 256,
    .hmWrite 32 0 1 0 (tData 64) (List.replicate 64 true), .hmWrite 0 1 1 0 (tData 64) (List.replicate 64 true),
    .hmWrite 0 0 1 0 (tData 63) (List.replicate 64 true), .hmWrite 0 0 1 0 (tData 64) [], .hmWrite 0 0 5 0 (tData 320) (List.replicate 320 true),
    .hmWrite 0 0 1 256 (tData 64) (List.replicate 64 true), .chReadReturn 0 (tData 255) 0#32 true 0, .chPortFail 64].all
      (fun c => !wellFormed c) = true ∧
    wellFormed (.registerWrite .hcp 0xFFFF8 0#64) = true ∧ wellFormed (.hmRead 31 3 (2 ^ 48 - 64) 4 255) = true ∧
    wellFormed (.hmWrite 31 0 1 255 (tData 64) (List.replicate 64 true)) = true := by decide +kernel

/-- Messages of the peer links (R26, R74 to R80, R389). -/
theorem test_wellFormed_messages : [Instr.beatSyncMsg (tMsg 256 1 0), .beatSyncMsg { tMsg 1 1 0 with arrive := [] }, .commitVote 256 0 0 .yes 0 0,
    .commitVote 0 (2 ^ 32) 0 .yes 0 0, .commitDecision (2 ^ 32) .commit 0 0 0, .commitDecision 0 .commit (2 ^ 48) 0 0, .journalQuery 256 0,
    .journalQuery 0 (2 ^ 32), .journalAnswer 256 0 .commit 0, .journalAnswer 0 0 .commit (2 ^ 48), .reducePartial 256 0 0#34,
    .reducePartial 0 (2 ^ 32) 0#34, .reduceTotal (2 ^ 32) 0#34 0#34, .roundOpen 256 0 0, .roundOpen 0 0 (2 ^ 32), .mcSlot 256 0 0 0 0 [],
    .mcSlot 0 0 (2 ^ 32) 0 0 [], .slotAck 256 0 0, .slotAck 0 0 (2 ^ 48), .mcDetach 256, .detachNotice 256, .abandonNotice 256, .roundOpenRefused 256,
    .mirrorData 256 0 0 [] [], .mirrorData 0 (2 ^ 32) 0 [] [], .mirrorData 0 0 (2 ^ 32) [] [], .sealMsg 256 0, .sealMsg 0 (2 ^ 32),
    .mirrorTileRequest 256 0 ⟨0, 0⟩, .mirrorTileRequest 0 (2 ^ 32) ⟨0, 0⟩, .mirrorTileAnswer 256 0 ⟨0, 0⟩ none, .mirrorLossReport 256 0,
    .tierMirrorPage 256 0 0#32 [], .tierMirrorPage 0 (2 ^ 23) 0#32 [], .tierMirrorPage 0 0 0#32 [], .pageFetchRequest 256 0 0#32,
    .pageFetchRequest 0 (2 ^ 23) 0#32, .pageFetchAnswer 256 0 none, .pageFetchAnswer 0 (2 ^ 23) none, .pageFetchTimeout (2 ^ 23),
    .digestRequest 256 0 0 0, .digestRequest 0 (2 ^ 32) 0 0, .digestRequest 0 0 65536 0, .digestRequest 0 0 0 65536, .digestAnswer 256 0 0 [],
    .digestAnswer 0 0 (2 ^ 32) [], .peerFrame 8 [[], [], [], []], .peerPortUp 8 0 0, .peerPortUp 0 256 0, .peerPortUp 0 0 512, .laneSwap 8 0, .laneSwap 0 9,
    .linkCalibration 8 0, .linkCalibration 0 9].all (fun c => !wellFormed c) = true ∧
    wellFormed (.beatSyncMsg (tMsg 255 1 0)) = true ∧ wellFormed (.peerPortUp 7 255 511) = true := by decide +kernel

/-- Streams, tiers, the bridge, faults, pins. -/
theorem test_wellFormed_events : [Instr.ringClaim 56, .streamStop .gq 32 ⟨0, 0⟩ 0, .streamStopEnd 32, .streamWatchdog 32, .tierTimeout (2 ^ 23),
    .promotionStart (2 ^ 23), .garbageCollection 256, .bridgeReadStatus 8 0 0 0 [] ⟨0, 0, 0#32, 0#32, 0⟩,
    .bridgeReadStatus 0 256 0 0 [] ⟨0, 0, 0#32, 0#32, 0⟩, .bridgeReadStatus 0 0 0 0 (List.replicate 16385 0#8) ⟨0, 0, 0#32, 0#32, 0⟩,
    .bridgeProgramStatus 8 0 true, .bridgeEraseStatus 0 256 true, .bridgeTimeout 8 0, .bridgeSetFeaturesStatus 0 256,
    .laneError 264 1 0 ⟨0, 0, 0, 0⟩, .laneError 0 0 0 ⟨0, 0, 0, 0⟩, .laneError 0 7 0 ⟨0, 0, 0, 0⟩, .laneError 0 1 80 ⟨0, 0, 0, 0⟩, .rowError 132 1,
    .rowError 0 0, .rowError 0 5, .sramDoubleBit ⟨66, 0⟩ (.matrixStaging 0), .sramDoubleBit ⟨0, 2 ^ 22⟩ (.ringSlot .gq), .sramBankRetire (.corrected 66), .sramBankRetire (.failedAgain ⟨66, 0⟩),
     .tempSample 1024, .resetSequenceStart ⟨256, 0, 0⟩,
    .resetSequenceStart ⟨0, 16, 0⟩, .resetSequenceStart ⟨0, 0, 4⟩].all (fun c => !wellFormed c) = true ∧
    wellFormed (.resetSequenceStart ⟨255, 15, 3⟩) = true ∧ wellFormed (.laneError 263 6 79 ⟨0, 0, 0, 0⟩) = true := by decide +kernel

/-- No word spells a command, so a word put in front leaves the state as it is; an empty queue idles. -/
theorem test_noWordSpellsACommand : decodeTableWord 8 1 = none ∧ tReady.withFetchWord 8 1 = tReady ∧ step tReady = .next tReady := ⟨rfl, rfl, rfl⟩

/-! One theorem for each statement with hypotheses: concrete states and operands meet all of them, for each clause. -/

theorem test_StepRunsTheFrontCommand :
    (let H : State → Instr → List Instr → Prop := fun (s : State) (c : Instr) (rest : List Instr) =>
      s.pending = c :: rest
    H ({ tReady with pending := [.telemetrySlice] }) .telemetrySlice []) ∧
    (let H : State → Prop := fun (s : State) =>
      s.pending = []
    H tReady) ∧
    (let H : State → State → Instr → List Instr → Prop := fun (s : State) (t : State) (c : Instr) (rest : List Instr) =>
      s.pending = c :: rest
    H ({ tReady with pending := [.telemetrySlice] }) tReady .telemetrySlice []) :=
  ⟨by decide +kernel,
    by decide +kernel,
    by decide +kernel⟩

theorem test_IdentityRegistersReadAsFixed :
    let H : State → Nat → Word → Prop := fun (s : State) (o : Nat) (w : Word) =>
      Open s ∧ o ∈ [oBlockId, oBlockVersion, oCaps0, oCaps1, oCaps2, oCaps3]
    H tReady oBlockId (1#64) ∧ H tReady oCaps3 (0xFFFFFFFFFFFFFFFF#64) := by refine ⟨?_, ?_⟩ <;> decide +kernel

theorem test_EveryStepKeepsTheStateSound :
    let H : State → State → Prop := fun (s t : State) =>
      s.wf = true
    H tReady tReady := by decide +kernel

theorem test_EveryCommandAnswersAndWorkWaitsForReady :
    (let H : State → Prop := fun (s : State) =>
      s.wf = true ∧ s.pin.phase = 0
    H State.reset) ∧
    (let H : State → Instr → Prop := fun (s : State) (c : Instr) =>
      s.wf = true ∧ s.pin.phase ≠ 0 ∧ (c = .wsBypass ∨ c = .wsExtest ∨ c = .wsIntest ∨ c = .wsMbist)
    H tReady .wsIntest ∧ H tReady .wsMbist ∧ H (State.reset.setPhase 1) .wsBypass) ∧
    (let H : State → State → List Instr → Prop := fun (s t : State) (cs : List Instr) =>
      s.pin.phase = 0 ∧ (∀ c ∈ cs, actsInReset c = false)
    H State.reset State.reset [.gather, .registerWrite .hcp oCtl 1#64, .beatBoundary 0]) ∧
    (let H : Instr → State → Prop := fun (c : Instr) (s : State) =>
      engineWork c = true ∧ (s.pin.phase < 6 ∨ s.pin.halted = true)
    H .gather State.reset) ∧
    (let H : Instr → State → Prop := fun (c : Instr) (s : State) =>
      portCommand c = true ∧ s.pin.phase < 2 ∧ s.wf = true
    H (.doorbell .gq 1#64) State.reset) :=
  ⟨by decide +kernel,
    by refine ⟨?_, ?_, ?_⟩ <;> decide +kernel,
    by decide +kernel,
    by decide +kernel,
    by decide +kernel⟩

theorem test_RegisterWritesActFieldByField :
    (let H : State → Nat → Word → Prop := fun (s : State) (o : Nat) (w : Word) =>
      Open s ∧ o < 2 ^ 20 ∧ o % 8 = 0 ∧ plainRegister o = true
    H tReady (oStrmPf 31) (0xFFFFFFFFFFFFFFFF#64) ∧ H (tReady.setReg oNumStat 0x1F#64) oNumStat (0x7FFFFFFFFFFFFFFF#64) ∧ H tReady 0xFFFF8 (5#64)) ∧
    (let H : State → Nat → Word → Prop := fun (s : State) (o : Nat) (w : Word) =>
      Open s ∧ o < 2 ^ 20 ∧ o % 8 = 0 ∧ (¬ (0xD000 ≤ o ∧ o < 0xE000))
    H tReady 0xCFF8 (5#64) ∧ H (tReady.setReg oSvRefused 0xFFFFFFFFFFFFFFFF#64) 0xE000 (5#64)) ∧
    (let H : State → Nat → Word → RegPort → Prop := fun (s : State) (o : Nat) (w : Word) (port : RegPort) =>
      Open s ∧ o < 2 ^ 20 ∧ o % 8 = 0 ∧ 0xD000 ≤ o ∧ o < 0xE000 ∧ o ≠ oSvCtl ∧ o ≠ oSvImgWr
    H tReady 0xD010 (5#64) .svp ∧ H tReady 0xDFF8 (5#64) .hcp) ∧
    (let H : State → Word → Prop := fun (s : State) (w : Word) =>
      Open s
    H tReady (0xFFFFFFFFFFFFFFFF#64) ∧ H (tReady.setReg oCtl 0xFFFFFFFFFFFFFFFF#64) (0#64)) :=
  ⟨by refine ⟨?_, ?_, ?_⟩ <;> decide +kernel,
    by refine ⟨?_, ?_⟩ <;> decide +kernel,
    by refine ⟨?_, ?_⟩ <;> decide +kernel,
    by refine ⟨?_, ?_⟩ <;> decide +kernel⟩

theorem test_StagedCopiesAreWrittenCheckedAndArmed :
    (let H : State → Nat → Word → Prop := fun (s : State) (o : Nat) (w : Word) =>
      Open s ∧ o < 2 ^ 20 ∧ o % 8 = 0 ∧ isStaged o = true ∧ s.stageState ≤ 5 ∧ s.stageState ≠ 4
    H ({ tStage 0 with stage := { tReady.stage with armG := 5 } }) oBeatCfg (0xFFFFFFFFFFFFFFFF#64) ∧ H
      ({ tStage 1 with stage := { tReady.stage with armG := 5 } }) oBeatCfg (0xFFFFFFFFFFFFFFFF#64) ∧ H
      ({ tStage 2 with stage := { tReady.stage with armG := 5 } }) oBeatCfg (0xFFFFFFFFFFFFFFFF#64) ∧ H
      ({ tStage 3 with stage := { tReady.stage with armG := 5 } }) oBeatCfg (0xFFFFFFFFFFFFFFFF#64) ∧ H
      ({ tStage 5 with stage := { tReady.stage with armG := 5 } }) oBeatCfg (0xFFFFFFFFFFFFFFFF#64)) ∧
    (let H : State → Word → Prop := fun (s : State) (w : Word) =>
      Open s ∧ s.alive = true ∧ (s.stageState = 0 ∨ s.stageState = 5) ∧ bit w 0 = true ∧ bit w 1 = false ∧ bit w 2 = false ∧ bit w 3 = false
    H tReady (0xC1#64) ∧ H (tStage 5) (1#64)) ∧
    (let H : State → Word → Prop := fun (s : State) (w : Word) =>
      Open s ∧ s.alive = true ∧ s.stageState = 2 ∧ bit w 1 = true ∧ bit w 0 = false ∧ bit w 2 = false ∧ bit w 3 = false
    H (tStage 2) (0x42#64) ∧ H ((tStage 2).setReg oStageApplyBeat 5#64) (2#64) ∧ H (((tStage 2).setReg oStageApplyBeat 5#64).setReg oBeatNow 5#64)
      (2#64)) ∧
    (let H : State → Word → Prop := fun (s : State) (w : Word) =>
      Open s ∧ s.alive = true ∧ s.stageState = 0 ∧ bit w 3 = true ∧ bit w 0 = false ∧ bit w 1 = false
    H (tReady.setStg oBeatCfg 7#64) (8#64) ∧ H tReady (0xC8#64)) :=
  ⟨by refine ⟨?_, ?_, ?_, ?_, ?_⟩ <;> decide +kernel,
    by refine ⟨?_, ?_⟩ <;> decide +kernel,
    by refine ⟨?_, ?_, ?_⟩ <;> decide +kernel,
    by refine ⟨?_, ?_⟩ <;> decide +kernel⟩

theorem test_ReadinessInFlightIsNotWithdrawn :
    (let H : State → Nat → Word → Prop := fun (s : State) (o : Nat) (w : Word) =>
      Open s ∧ o < 2 ^ 20 ∧ o % 8 = 0 ∧ isStaged o = true ∧ s.stageState = 4
    H (tStage 4) oBeatCfg (0#64)) ∧
    (let H : State → Word → Prop := fun (s : State) (w : Word) =>
      Open s ∧ s.stageState = 4 ∧ bit w 2 = true
    H (tStage 4) (4#64) ∧ H (tStage 4) (0xFF#64)) ∧
    (let H : State → Word → Prop := fun (s : State) (w : Word) =>
      Open s ∧ s.stageState = 3 ∧ bit w 2 = true ∧ bit w 0 = false ∧ bit w 1 = false ∧ bit w 3 = false
    H ({ tStage 3 with stage := { tReady.stage with armG := 5 } }) (0xC4#64)) :=
  ⟨by decide +kernel,
    by refine ⟨?_, ?_⟩ <;> decide +kernel,
    by decide +kernel⟩

theorem test_ChecksEndAndSetsAreApplied :
    (let H : State → Prop := fun (s : State) =>
      Ready s ∧ s.stageState = 1
    H ({ tStage 1 with stage := { tReady.stage with snap := tReady.staged } }) ∧ H
      ({ tStage 1 with stage := { tReady.stage with snap := tReady.staged, dirty := true } })) ∧
    (let H : State → Prop := fun (s : State) =>
      s.wf = true ∧ s.pin.phase = 6 ∧ s.flipDue = false ∧ s.applyDue = true ∧ s.abortDue = false ∧ s.roundTo false = false ∧ s.roundTo true = false
    H ((tStage 3).setStg oGradClip 5#64)) ∧
    (let H : State → Prop := fun (s : State) =>
      s.wf = true ∧ s.pin.phase = 6 ∧ s.flipDue = false ∧ s.applyDue = false ∧ s.groupDue = true ∧ s.abortDue = false ∧ s.roundTo false = false ∧
        s.roundTo true = false
    H ({ (tStage 4).setStg oGradClip 5#64 with stage := { tReady.stage with groupAt := some 0 } })) ∧
    (let H : State → Prop := fun (s : State) =>
      Ready s ∧ s.stageState = 4 ∧ s.stage.groupAt = none ∧ s.stage.readyAt + s.voteTimeout ≤ s.beat
    H ((tStage 4).setReg oCommitGroup 0#64) ∧ H ({ (tStage 4).setReg oCommitGroup 0#64 with stage := { tReady.stage with missed := true } })) ∧
    (let H : State → Int → Prop := fun (s : State) (ns : Int) =>
      Ready s ∧ s.stageState = 4 ∧ s.stage.groupAt = none ∧ s.stagedMates (fld (s.stg oCommitGroup) 39 32) ≠ [] ∧ (∀ m ∈ s.stagedMates (fld (s.stg
        oCommitGroup) 39 32), m.beat ≠ s.beat)
    H ({ (tStage 4).setB oBeatSync 31 true with peer := { tReady.peer with adverts := [tMsg 1 1 7] } }) 0) :=
  ⟨by refine ⟨?_, ?_⟩ <;> decide +kernel,
    by decide +kernel,
    by decide +kernel,
    by refine ⟨?_, ?_⟩ <;> decide +kernel,
    by decide +kernel⟩

theorem test_QueueRegistersAct :
    (let H : State → Queue → Word → Prop := fun (s : State) (q : Queue) (w : Word) =>
      let v := fld w 31 0
      let ok := s.alive = true ∧ s.enabled q = true ∧ s.b (oQStat (qIdx q)) 0 = true ∧ sub32 v (s.doneSeq q) ≤ s.entries q ∧ sub32 v (s.posted q) < 2
        ^ 31
      Open s ∧ (¬ ok)
    H tReady .gq (1#64) ∧ H (tQueue tReady .sq 0 0xFFFFFFFF) .sq (64#64)) ∧
    (let H : State → Queue → Word → Prop := fun (s : State) (q : Queue) (w : Word) =>
      let v := fld w 31 0
      let ok := s.alive = true ∧ s.enabled q = true ∧ s.b (oQStat (qIdx q)) 0 = true ∧ sub32 v (s.doneSeq q) ≤ s.entries q ∧ sub32 v (s.posted q) < 2
        ^ 31
      Open s ∧ ok ∧ (s.run q ≠ none ∨ (s.setF (oQDoneSeq (qIdx q)) 63 32 v).headFault q = none)
    H (tRunning tReady .aq (tRun 1 0x20)) .aq (64#64)) ∧
    (let H : State → Queue → Word → Prop := fun (s : State) (q : Queue) (w : Word) =>
      Open s ∧ s.pin.phase = 6 ∧ s.queues.length = 4 ∧ s.enabled q = false ∧ bit w 0 = true ∧ 6 ≤ fld w 12 8 ∧ fld w 12 8 ≤ 16
    H tReady .uq (0x1001#64) ∧ H tReady .sq (0xFFFFFFFF00000601#64)) ∧
    (let H : State → Queue → Prop := fun (s : State) (q : Queue) =>
      Ready s ∧ s.queues.length = 4 ∧ (s.queue q).zeroing = true
    H ({ tReady with queues := [⟨none, true, 0⟩, .idle, .idle, .idle] }) .gq ∧ H
      (({ tReady.setF (oQCfg 3) 12 8 6 with queues := [.idle, .idle, .idle, ⟨none, true, 0⟩] } : State).store 0x39600004 [1#8]) .sq) ∧
    (let H : State → Queue → Word → Prop := fun (s : State) (q : Queue) (w : Word) =>
      Open s ∧ s.enabled q = true
    H (tQueue tReady .gq 5 5) .gq (0x600#64) ∧ H (tQueue tReady .gq 6 5) .gq (0x600#64) ∧ H (tQueue tReady .gq 5 5) .gq (0x701#64) ∧ H (tQueue tReady
      .gq 5 5) .gq (0x100000600#64)) ∧
    (let H : State → Queue → Word → Prop := fun (s : State) (q : Queue) (w : Word) =>
      Open s ∧ s.enabled q = false ∧ bit w 0 = false ∧ (fld w 12 8 < 6 ∨ 16 < fld w 12 8)
    H tReady .gq (0x500#64) ∧ H tReady .gq (0x1F00001100#64)) :=
  ⟨by refine ⟨?_, ?_⟩ <;> decide +kernel,
    by decide +kernel,
    by refine ⟨?_, ?_⟩ <;> decide +kernel,
    by refine ⟨?_, ?_⟩ <;> decide +kernel,
    by refine ⟨?_, ?_, ?_, ?_⟩ <;> decide +kernel,
    by refine ⟨?_, ?_⟩ <;> decide +kernel⟩

theorem test_SwapsRetireALaneOrARow :
    (let H : State → Word → Prop := fun (s : State) (w : Word) =>
      Open s ∧ (bit w 63 = false ∨ s.pin.halted = true ∨ 264 ≤ fld w 8 0 ∨ s.b (oFabRetired (fld w 8 0 / 64)) (fld w 8 0 % 64) = true)
    H tReady (7#64) ∧ H tReady (0x8000000000000108#64)) ∧
    (let H : State → Word → Nat → Nat → Prop := fun (s : State) (w : Word) (i r : Nat) =>
      Open s ∧ bit w 63 = true ∧ s.pin.halted = false ∧ fld w 8 0 < 264 ∧ s.b (oFabRetired (fld w 8 0 / 64)) (fld w 8 0 % 64) = false ∧ placeOf
        s.fab.laneMap (fld w 8 0) = some i ∧ (pool 264 s.fab.laneMap s.lanesOut).head? = some r
    H ({ tReady with fab := { tReady.fab with laneMap := [0, 263] } }) (0x8000000000000107#64) 1 1) ∧
    (let H : State → Word → Prop := fun (s : State) (w : Word) =>
      Open s ∧ (bit w 63 = false ∨ s.pin.halted = true ∨ 132 ≤ fld w 7 0 ∨ s.b (oMxRetired (fld w 7 0 / 64)) (fld w 7 0 % 64) = true)
    H tReady (7#64) ∧ H tReady (0x8000000000000084#64)) ∧
    (let H : State → Word → Nat → Nat → Prop := fun (s : State) (w : Word) (i r : Nat) =>
      Open s ∧ bit w 63 = true ∧ s.pin.halted = false ∧ fld w 7 0 < 132 ∧ s.b (oMxRetired (fld w 7 0 / 64)) (fld w 7 0 % 64) = false ∧ placeOf
        s.fab.rowMap (fld w 7 0) = some i ∧ (pool 132 s.fab.rowMap s.rowsOut).head? = some r
    H ({ tReady with fab := { tReady.fab with rowMap := [0, 131] } }) (0x8000000000000083#64) 1 1) :=
  ⟨by refine ⟨?_, ?_⟩ <;> decide +kernel,
    by decide +kernel,
    by refine ⟨?_, ?_⟩ <;> decide +kernel,
    by decide +kernel⟩

theorem test_ServiceGroupMirrorsAndPrograms :
    (let H : State → RegPort → Prop := fun (s : State) (port : RegPort) =>
      Open s
    H tReady .hcp ∧ H tReady .svp) ∧
    (let H : State → RegPort → Word → Prop := fun (s : State) (port : RegPort) (w : Word) =>
      Open s ∧ s.serviceShut port = false ∧ s.b oSvImgStat 0 = false ∧ s.pin.image.length < 2 ^ 17
    H tReady .svp (5#64)) ∧
    (let H : State → RegPort → Word → Prop := fun (s : State) (port : RegPort) (w : Word) =>
      Open s ∧ (s.serviceShut port = true ∨ s.b oSvImgStat 0 = true ∨ 2 ^ 17 ≤ s.pin.image.length)
    H (tReady.setB oSvImgStat 0 true) .svp (5#64)) ∧
    (let H : State → RegPort → Word → Prop := fun (s : State) (port : RegPort) (w : Word) =>
      Open s ∧ s.serviceShut port = false ∧ bit w 2 = true ∧ bit w 1 = false ∧ bit w 0 = false
    H (tBuffer [5#64]) .svp (4#64)) ∧
    (let H : State → RegPort → Word → Nat × Nat → Prop := fun (s : State) (port : RegPort) (w : Word) (e : Nat × Nat) =>
      Open s ∧ 3 ≤ s.pin.phase ∧ s.b oSvImgStat 0 = false ∧ bit w 2 = false ∧ bit w 1 = true ∧ bit w 0 = false ∧ fld w 63 56 = 0xA5 ∧ checkImage
        s.imageBytes s.me = .inl e
    H tReady .svp (0xA500000000000002#64) (2, 0xFF)) ∧
    (let H : State → RegPort → Word → Image → Prop := fun (s : State) (port : RegPort) (w : Word) (x : Image) =>
      Open s ∧ 3 ≤ s.pin.phase ∧ s.b oSvImgStat 0 = false ∧ bit w 2 = false ∧ bit w 1 = true ∧ bit w 0 = false ∧ fld w 63 56 = 0xA5 ∧ checkImage
        s.imageBytes s.me = .inr x
    H (tBuffer (wordsFrom tImage 0 8)) .hcp (0xA500000000000002#64) ⟨[], 7#64, none, true⟩) ∧
    (let H : State → RegPort → Word → Prop := fun (s : State) (port : RegPort) (w : Word) =>
      Open s ∧ bit w 2 = false ∧ fld w 63 56 ≠ 0xA5
    H tReady .svp (3#64)) ∧
    (let H : State → Prop := fun (s : State) =>
      s.wf = true ∧ s.pin.phase ≠ 0 ∧ s.pin.imgBusy = true ∧ s.imageOps = false ∧ s.pin.rstHeld = false
    H ({ (tReady.setB oSvImgStat 0 true) with pin := { tReady.pin with imgBusy := true } })) :=
  ⟨by refine ⟨?_, ?_⟩ <;> decide +kernel,
    by decide +kernel,
    by decide +kernel,
    by decide +kernel,
    by decide +kernel,
    by decide +kernel,
    by decide +kernel,
    by decide +kernel⟩

theorem test_HostReadsReturnWhatTheAddressesHold :
    (let H : State → Nat → Nat → Nat → Nat → Nat → Prop := fun (s : State) (sub op addr beats tag : Nat) =>
      let n := 64 * beats
      s.wf = true ∧ s.pin.phase ≠ 0 ∧ s.calm = true ∧ s.io.bursts = [] ∧ s.cyan.held = [] ∧ (∀ w ∈ s.tier.waits, w.q ≠ 4) ∧ s.io.credits.length = 32
        ∧ sub < 32 ∧ 0 < (s.credits sub).1 ∧ 1 ≤ beats ∧ beats ≤ 4 ∧ addr % 64 = 0 ∧ addr < 2 ^ 48 ∧ tag < 256 ∧ op = 0 ∧ addr % 256 + n ≤ 256 ∧
        (s.inView addr = true ∨ s.populated addr n = true) ∧ s.addrPages (s.readAddrs addr n) = [] ∧ (∀ a ∈ s.readAddrs addr n, s.badLine (a / 256) =
        false)
    H tStack 31 0 0x40000000 4 255 ∧ H (tStack.store 0x3A000000 (tData 64)) 0 0 0x3A000000 1 0 ∧ H ((tStack.setReg oCyanBase 0x100000#64).setReg
      oCyanGeom 0x0000800000000001#64) 0 0 (0x800000000000-0+0) 1 0) ∧
    (let H : State → Nat → Nat → Nat → Nat → Nat → Prop := fun (s : State) (sub op addr beats tag : Nat) =>
      let n := 64 * beats
      s.wf = true ∧ s.pin.phase ≠ 0 ∧ s.calm = true ∧ s.io.bursts = [] ∧ s.cyan.held = [] ∧ (∀ w ∈ s.tier.waits, w.q ≠ 4) ∧ s.io.credits.length = 32
        ∧ sub < 32 ∧ 0 < (s.credits sub).1 ∧ 1 ≤ beats ∧ beats ≤ 4 ∧ addr % 64 = 0 ∧ addr < 2 ^ 48 ∧ tag < 256 ∧ (op = 2 ∨ op = 3 ∨ (op = 0 ∧ (256 <
        addr % 256 + n ∨ (s.inView addr = false ∧ s.populated addr n = false))))
    H tStack 31 0 0x400000C0 2 255 ∧ H ({ tReady with io := tStack.io }) 31 2 0x0 2 255 ∧ H tStack 31 3 0x0 1 0) :=
  ⟨by refine ⟨?_, ?_, ?_⟩ <;> decide +kernel,
    by refine ⟨?_, ?_, ?_⟩ <;> decide +kernel⟩

theorem test_HostWritesStoreTheEnabledBytesOrNone :
    (let H : State → Nat → Nat → Nat → Nat → List Byte → List Bool → Prop := fun (s : State) (sub addr beats tag : Nat) (data : List Byte) (mask :
      List Bool) =>
      s.wf = true ∧ s.pin.phase ≠ 0 ∧ s.calm = true ∧ s.io.bursts = [] ∧ s.cyan.held = [] ∧ (∀ w ∈ s.tier.waits, w.q ≠ 4) ∧ s.io.credits.length = 32
        ∧ sub < 32 ∧ 0 < (s.credits sub).1 ∧ beats ≤ (s.credits sub).2 ∧ 1 ≤ beats ∧ beats ≤ 4 ∧ addr % 64 = 0 ∧ data.length = 64 * beats ∧
        mask.length = 64 * beats ∧ addr % 256 + 64 * beats ≤ 256 ∧ s.inView addr = false ∧ s.populated addr (64 * beats) = true ∧ s.addrPages [addr]
        = [] ∧ s.writeRefused ⟨sub, true, addr, beats, tag, data, mask, false, 0⟩ = false ∧ s.badLine (addr / 256) = false ∧ s.reg oChFailed = 0#64
    H tStack 31 0xC0000040 1 7 (tData 64) ((List.range 64).map (· % 2 = 0)) ∧ H ({ tStack with mem := [(0xFFFFFF03, 7#8)] }) 0 0xFFFFFF00 4 7 (tData
      256) (List.replicate 256 true)) ∧
    (let H : State → Nat → Nat → Nat → Nat → List Byte → List Bool → Prop := fun (s : State) (sub addr beats tag : Nat) (data : List Byte) (mask :
      List Bool) =>
      s.wf = true ∧ s.pin.phase ≠ 0 ∧ s.calm = true ∧ s.io.bursts = [] ∧ s.cyan.held = [] ∧ (∀ w ∈ s.tier.waits, w.q ≠ 4) ∧ s.io.credits.length = 32
        ∧ sub < 32 ∧ 0 < (s.credits sub).1 ∧ beats ≤ (s.credits sub).2 ∧ 1 ≤ beats ∧ beats ≤ 4 ∧ addr % 64 = 0 ∧ data.length = 64 * beats ∧
        mask.length = 64 * beats ∧ addr % 256 + 64 * beats ≤ 256 ∧ s.inView addr = false ∧ s.populated addr (64 * beats) = true ∧ s.addrPages [addr]
        = [] ∧ s.writeRefused ⟨sub, true, addr, beats, tag, data, mask, false, 0⟩ = true
    H tStack 31 0x39000000 1 7 (tData 64) (List.replicate 64 true)) :=
  ⟨by refine ⟨?_, ?_⟩ <;> decide +kernel,
    by decide +kernel⟩

theorem test_LinesAreRetriedCheckedAndLost :
    (let H : State → Nat → Prop := fun (s : State) (line : Nat) =>
      s.wf = true ∧ 3 ≤ s.pin.phase ∧ s.b oChFailed (line % 64) = false
    H ({ tReady with io := { tReady.io with tries := [⟨5, 2, true, false⟩], portBad := [(5, 4)] } }) 5 ∧ H tReady 0) ∧
    (let H : State → Nat → Nat → Bool → Prop := fun (s : State) (line n : Nat) (again : Bool) =>
      s.wf = true ∧ 3 ≤ s.pin.phase ∧ s.b oChFailed (line % 64) = false ∧ line < 2 ^ 29 ∧ s.lineTry line true = (n, again) ∧ n < 3
    H ({ tReady with io := { tReady.io with tries := [⟨5, 2, true, false⟩], portBad := [(5, 4)] } }) 5 2 false ∧ H tReady 0 0 false) ∧
    (let H : State → Nat → Nat → Bool → List Byte → BitVec 32 → Instr → Prop := fun (s : State) (line n : Nat) (again : Bool) (data : List Byte) (cw :
      BitVec 32) (c : Instr) =>
      s.wf = true ∧ 3 ≤ s.pin.phase ∧ s.b oChFailed (line % 64) = false ∧ line < 2 ^ 29 ∧ s.lineTry line false = (n, again) ∧ n < 3 ∧ s.io.bursts =
        [] ∧ s.cyan.held = [] ∧ (c = .chReadTimeout line (n + again.toNat) ∨ c = .chReadReturn line data cw false (n + again.toNat))
    H ({ tReady with io := { tReady.io with tries := [⟨5, 2, false, true⟩], portBad := [(5, 4)] } }) 5 2 true [] (0#32) (.chReadTimeout 5 3) ∧ H
      tReady 0 0 false (tData 256) (0#32) (.chReadReturn 0 (tData 256) 0#32 false 0)) ∧
    (let H : State → Nat → Nat → Bool → Instr → Prop := fun (s : State) (line p : Nat) (again : Bool) (c : Instr) =>
      s.wf = true ∧ 3 ≤ s.pin.phase ∧ s.b oChFailed (line % 64) = false ∧ s.psLine line = some p ∧ s.io.bursts = [] ∧ s.cyan.held = [] ∧ ((c =
        .chWriteResponse line true (3 + again.toNat) ∧ s.lineTry line true = (3, again)) ∨ (c = .chReadTimeout line (3 + again.toNat) ∧ s.lineTry
        line false = (3, again)))
    H ({ tStack.setF oTierMap 48 32 100 with io := { tReady.io with tries := [⟨409600, 3, false, false⟩], portBad := [(0, 4)] } }) 409600 409600
      false (.chReadTimeout 409600 3) ∧ H
      ({ tStack.setF oTierMap 48 32 100 with io := { tReady.io with tries := [⟨409600, 3, true, true⟩], portBad := [(0, 4)] } }) 409600 409600 true
      (.chWriteResponse 409600 true 4)) ∧
    (let H : State → Nat → Nat → List Byte → Prop := fun (s : State) (line p : Nat) (data : List Byte) =>
      s.wf = true ∧ 3 ≤ s.pin.phase ∧ s.b oChFailed (line % 64) = false ∧ s.io.bursts = [] ∧ s.cyan.held = [] ∧ s.psLine line = some p ∧ data.length
        = 256
    H
      ({ tStack.setF oTierMap 48 32 100 with badLines := [4198400], io := { tReady.io with tries := [⟨409600, 2, false, true⟩], portBad := [(0, 4)] } })
      409600 409600 (tData 256)) ∧
    (let H : State → Nat → Nat → List Byte → BitVec 32 → Prop := fun (s : State) (line n : Nat) (data : List Byte) (cw : BitVec 32) =>
      s.wf = true ∧ 3 ≤ s.pin.phase ∧ s.b oChFailed (line % 64) = false ∧ line < 2 ^ 29 ∧ s.io.bursts = [] ∧ s.cyan.held = [] ∧ s.lineTry line false
        = (n, false) ∧ lineRead data cw ≠ .good
    H tStack 5 0 (tData 256) (crc32c (tData 256) ^^^ 4#32) ∧ H
      ({ tStack.setF oTierMap 48 32 2048 with badLines := [], io := { tReady.io with tries := [⟨5, 1, false, false⟩] } }) 5 1 (tData 256) (crc32c
      (tData 256) ^^^ 0x123#32)) ∧
    (let H : State → Nat → Nat → Nat → List Byte → List Byte → BitVec 32 → Prop := fun (s : State) (line n p : Nat) (data d : List Byte) (cw : BitVec
      32) =>
      s.wf = true ∧ 3 ≤ s.pin.phase ∧ s.b oChFailed (line % 64) = false ∧ line < 2 ^ 29 ∧ s.io.bursts = [] ∧ s.cyan.held = [] ∧ s.lineTry line false
        = (n, true) ∧ lineRead data cw = .fixed d ∧ d.length = 256 ∧ s.psLine line = some p
    H ({ tStack.setF oTierMap 48 32 2048 with badLines := [5], io := { tReady.io with tries := [⟨5, 1, false, true⟩] } }) 5 1 5 (tData 256) (tData
      256) (crc32c (tData 256) ^^^ 4#32)) ∧
    (let H : State → Nat → Nat → Nat → List Byte → BitVec 32 → Prop := fun (s : State) (line n p : Nat) (data : List Byte) (cw : BitVec 32) =>
      s.wf = true ∧ 3 ≤ s.pin.phase ∧ s.b oChFailed (line % 64) = false ∧ s.io.bursts = [] ∧ s.cyan.held = [] ∧ s.lineTry line false = (n, true) ∧
        lineRead data cw = .bad ∧ s.psLine line = some p ∧ 256 * p < 2 ^ 40 ∧ (¬ (s.io.slice.1 ≤ line ∧ line < s.io.slice.1 + s.io.slice.2))
    H ({ tStack.setF oTierMap 48 32 2048 with badLines := [], io := { tReady.io with tries := [⟨5, 1, false, true⟩] } }) 5 1 5 (tData 256) (crc32c
      (tData 256) ^^^ 0x123#32) ∧ H
      ({ tStack.setF oTierMap 48 32 2048 with badLines := [5], io := { tReady.io with tries := [⟨5, 1, false, true⟩] } }) 5 1 5 (tData 256) (crc32c
      (tData 256) ^^^ 0x123#32)) ∧
    (let H : State → Nat → Prop := fun (s : State) (p : Nat) =>
      s.wf = true ∧ s.pin.phase ≠ 0 ∧ p < 64 ∧ 16 ≤ s.portRun p ∧ s.b oChFailed p = false
    H ({ tReady with io := { tReady.io with portBad := [(63, 16)] } }) 63 ∧ H
      ({ tReady with io := { tReady.io with portBad := [(0, 20)] }, live := (tReady.setB oFaultRecord 63 true).live }) 0) :=
  ⟨by refine ⟨?_, ?_⟩ <;> decide +kernel,
    by refine ⟨?_, ?_⟩ <;> decide +kernel,
    by refine ⟨?_, ?_⟩ <;> decide +kernel,
    by refine ⟨?_, ?_⟩ <;> decide +kernel,
    by decide +kernel,
    by refine ⟨?_, ?_⟩ <;> decide +kernel,
    by decide +kernel,
    by refine ⟨?_, ?_⟩ <;> decide +kernel,
    by refine ⟨?_, ?_⟩ <;> decide +kernel⟩

theorem test_BackgroundSlicesAdvanceTheirRecords :
    (let H : State → Nat → Prop := fun (s : State) (n : Nat) =>
      Ready s ∧ s.b oScrubCfg 0 = true ∧ 0 < s.f oTierStat 63 47 ∧ LinesGood s ∧ s.io.badFree = [] ∧ s.f oScrubStat 47 8 < s.f oTierStat 63 47 * 8192
    H ((tWith oTierStat 63 47 1).setB oScrubCfg 0 true) 8192 ∧ H ((tWith oTierStat 63 47 1).setB oScrubCfg 0 true) 8191) ∧
    (let H : State → GreyClass → Prop := fun (s : State) (c : GreyClass) =>
      Ready s ∧ (c = .scrub → s.scrubOverrun = true)
    H ((tReady.setB oScrubCfg 0 true).setF oScrubCfg 47 16 0) .scrub ∧ H ({ tReady with res := { tReady.res with starveAt := 1 } }) .telemetry) ∧
    (let H : State → Prop := fun (s : State) =>
      Ready s ∧ s.scrubOverrun = false
    H tReady ∧ H ((tReady.setB oScrubCfg 0 true).setF oScrubCfg 47 16 1)) ∧
    (let H : State → Prop := fun (s : State) =>
      Ready s
    H tReady ∧ H tStack) :=
  ⟨by refine ⟨?_, ?_⟩ <;> decide +kernel,
    by refine ⟨?_, ?_⟩ <;> decide +kernel,
    by refine ⟨?_, ?_⟩ <;> decide +kernel,
    by refine ⟨?_, ?_⟩ <;> decide +kernel⟩

theorem test_BeatsAdvanceAndFollowTheMaster :
    (let H : State → Int → Prop := fun (s : State) (ns : Int) =>
      s.wf = true ∧ 3 ≤ s.pin.phase ∧ s.calm = true ∧ s.beat + 1 < 2 ^ 48
    H tReady (-50) ∧ H (tReady.setB oBeatCfg 16 false) (-51) ∧ H ((tReady.setB oBeatCfg 16 false).setB oCtl 0 true) 32767) ∧
    (let H : State → Int → Prop := fun (s : State) (ns : Int) =>
      s.wf = true ∧ 3 ≤ s.pin.phase ∧ s.calm = true ∧ s.barriersDue = [] ∧ s.run .sq = none ∧ s.stageState ≠ 4 ∧ (∀ e ∈ s.tier.pages, e.2.held =
        false)
    H tReady 0 ∧ H (tReady.setB oBeatCfg 16 false) (-32768)) ∧
    (let H : State → BeatMsg → Nat → Prop := fun (s : State) (m : BeatMsg) (x : Nat) =>
      (∀ y, m.master = some y → ¬ (y = m.src ∧ y < x ∧ m.heard = true)) ∧ s.wf = true ∧ 3 ≤ s.pin.phase ∧ m.src ≠ s.me ∧ s.stageState ≠ 4 ∧
        s.peer.synced = true ∧ s.master = some x
    H ({ tReady with peer := { tReady.peer with synced := true } }) (tMsg 1 0 9) 0 ∧ H
      ({ (tReady.setF oBeatSync 47 40 1).setB oBeatCfg 16 false with peer := { tReady.peer with synced := true } }) (tMsg 1 1 9) 1) ∧
    (let H : State → BeatMsg → Nat → Nat → Prop := fun (s : State) (m : BeatMsg) (x y : Nat) =>
      s.wf = true ∧ 3 ≤ s.pin.phase ∧ m.src ≠ s.me ∧ s.stageState ≠ 4 ∧ y < 256 ∧ y ≠ s.me ∧ s.master = some x ∧ m.master = some y ∧ y ≠ x ∧ m.beat <
        2 ^ 48 ∧ ((y = m.src ∧ y < x ∧ s.peer.synced = m.heard) ∨ (s.peer.synced = false ∧ m.heard = true))
    H ({ tReady.setF oBeatSync 47 40 5 with pin := { tReady.pin with straps := ⟨5, 0, 3⟩ } }) (tMsg 6 2 9) 5 2 ∧ H
      ({ (tReady.setF oBeatSync 47 40 5).setF oBeatNow 47 0 17 with pin := { tReady.pin with straps := ⟨5, 0, 3⟩ }, peer := { tReady.peer with synced := true } })
      (tMsg 2 2 9) 5 2 ∧ H ({ tReady.setF oBeatSync 47 40 5 with pin := { tReady.pin with straps := ⟨5, 0, 3⟩ } })
      ({ tMsg 2 2 9 with heard := false }) 5 2) ∧
    (let H : State → BeatMsg → Nat → Prop := fun (s : State) (m : BeatMsg) (y : Nat) =>
      s.wf = true ∧ 3 ≤ s.pin.phase ∧ m.src ≠ s.me ∧ s.stageState ≠ 4 ∧ s.master = none ∧ m.master = some y ∧ y ≠ s.me ∧ y < 256 ∧ m.beat < 2 ^ 48
    H (tReady.setB oBeatCfg 16 false) (tMsg 1 1 9) 1 ∧ H (tReady.setB oBeatCfg 16 false) (tMsg 3 2 9) 2) ∧
    (let H : State → Prop := fun (s : State) =>
      s.wf = true ∧ 3 ≤ s.pin.phase ∧ s.b oBeatCfg 16 = false ∧ s.peer.heardAt + 4 ≤ s.beat
    H (((tReady.setB oBeatCfg 16 false).setF oBeatNow 47 0 4).setF oBeatSync 47 40 7) ∧ H
      ({ ((tReady.setB oBeatCfg 16 false).setF oBeatNow 47 0 4).setF oBeatSync 47 40 0 with pin := { tReady.pin with straps := ⟨5, 0, 3⟩ }, peer := { tReady.peer with adverts := [tMsg 0 0 3, tMsg 3 0 3] } })) :=
  ⟨by refine ⟨?_, ?_, ?_⟩ <;> decide +kernel,
    by refine ⟨?_, ?_⟩ <;> decide +kernel,
    ⟨⟨fun y h => by cases h; decide +kernel, by decide +kernel⟩, ⟨fun y h => by cases h; decide +kernel, by decide +kernel⟩⟩,
    by refine ⟨?_, ?_, ?_⟩ <;> decide +kernel,
    by refine ⟨?_, ?_⟩ <;> decide +kernel,
    by refine ⟨?_, ?_⟩ <;> decide +kernel⟩

theorem test_SyncIsLostAndRegained :
    (let H : State → Int → Prop := fun (s : State) (ns : Int) =>
      s.wf = true ∧ 3 ≤ s.pin.phase ∧ s.calm = true ∧ s.b oBeatCfg 16 = false
    H (tReady.setB oBeatCfg 16 false) (-51) ∧ H (tReady.setB oBeatCfg 16 false) 50) ∧
    (let H : State → Prop := fun (s : State) =>
      s.wf = true ∧ 3 ≤ s.pin.phase ∧ 4 ≤ s.peer.badRun ∧ s.b oBeatCfg 16 = false
    H ({ tReady.setB oBeatCfg 16 false with peer := { tReady.peer with badRun := 4 } }) ∧ H
      ({ (tReady.setB oBeatCfg 16 false).setB oFaultRecord 63 true with peer := { tReady.peer with badRun := 4 } })) ∧
    (let H : State → Prop := fun (s : State) =>
      s.wf = true ∧ 3 ≤ s.pin.phase ∧ 4 ≤ s.peer.goodRun ∧ s.b oBeatCfg 16 = false
    H ({ tReady.setB oBeatCfg 16 false with peer := { tReady.peer with goodRun := 4 } })) :=
  ⟨by refine ⟨?_, ?_⟩ <;> decide +kernel,
    by refine ⟨?_, ?_⟩ <;> decide +kernel,
    by decide +kernel⟩

theorem test_VotesAreCollectedDecidedAndFollowed :
    (let H : State → Nat → Nat → Nat → Vote → Nat → Nat → Prop := fun (s : State) (src step v : Nat) (vote : Vote) (held reason : Nat) =>
      Ready s ∧ s.isCoord = true ∧ s.commit.votes ≠ [] ∧ s.commit.voteStep = step ∧ s.commit.votes.any (·.src == src) = false ∧ s.commit.votes.length
        + 1 < s.groupSize
    H ({ tCoord 2 with commit := { tReady.commit with votes := [⟨1, 3, .yes, 0, 0⟩], voteStep := 1 } }) 2 1 5 .no 1 2) ∧
    (let H : State → Nat → Nat → Nat → Nat → Nat → Run → Prop := fun (s : State) (src step v : Nat) (held reason : Nat) (r : Run) =>
      let f := max ((s.commit.votes.map (·.v)).foldl max 0) v + tSync s.groupSize
      Ready s ∧ s.isCoord = true ∧ s.commit.votes ≠ [] ∧ s.commit.voteStep = step ∧ s.commit.votes.any (·.src == src) = false ∧ s.commit.votes.length
        + 1 = s.groupSize ∧ s.members.all (fun m => s.commit.votes.any (·.src == m) || m == src) = true ∧ s.commit.votes.all (·.vote == .yes) = true
        ∧ s.commitRun = some r ∧ r.step = step ∧ s.commit.decided = none ∧ s.commitPhase = 2 ∧ s.beat < f ∧ f < 2 ^ 48
    H ({ tCommit (tCoord 1) 2 with commit := { tReady.commit with votes := [⟨0, 3, .yes, 0, 0⟩], voteStep := 1 } }) 1 1 5 0 0 tCommitRun) ∧
    (let H : State → Nat → Nat → Nat → Vote → Nat → Nat → Nat → Prop := fun (s : State) (src step v : Nat) (vote : Vote) (held reason p : Nat) =>
      Ready s ∧ s.isCoord = false ∧ s.normParent = some p
    H tMember 2 1 5 .yes 0 0 1) ∧
    (let H : State → Prop := fun (s : State) =>
      Ready s ∧ s.isCoord = true ∧ s.commit.votes ≠ [] ∧ s.commit.firstVote + s.voteTimeout ≤ s.beat
    H ({ tCoord 2 with commit := { tReady.commit with votes := [⟨1, 3, .yes, 0, 0⟩], voteStep := 1 } }) ∧ H
      ({ tCommit (tCoord 1) 2 with peer := { tReady.peer with adverts := [tMsg 1 1 0] }, commit := { tReady.commit with votes := [⟨0, 3, .yes, 0, 0⟩], voteStep := 1 } })) ∧
    (let H : State → Nat → Nat → Nat → Nat → Run → Prop := fun (s : State) (step f inst info : Nat) (r : Run) =>
      Ready s ∧ s.commitRun = some r ∧ r.step = step ∧ s.commit.decided = none ∧ s.commitPhase = 2 ∧ s.beat < f ∧ f < 2 ^ 48
    H (tCommit (tCoord 1) 2) 1 1 2 3 tCommitRun ∧ H (tCommit tMember 2) 1 1 2 3 tCommitRun) ∧
    (let H : State → Nat → Nat → Nat → Nat → Decision → Run → Prop := fun (s : State) (step f inst info : Nat) (d : Decision) (r : Run) =>
      Ready s ∧ Last s .uq r ∧ s.commitRun = some r ∧ r.step = step ∧ s.commit.decided = none ∧ s.commitPhase = 2 ∧ (d = .held ∨ d = .abortNo)
    H (tCommit tMember 2) 1 7 2 3 .held tCommitRun ∧ H (tCommit tMember 2) 1 7 2 3 .abortNo tCommitRun) :=
  ⟨by decide +kernel,
    by decide +kernel,
    by decide +kernel,
    by refine ⟨?_, ?_⟩ <;> decide +kernel,
    by refine ⟨?_, ?_⟩ <;> decide +kernel,
    by refine ⟨?_, ?_⟩ <;> decide +kernel⟩

theorem test_TheFlipInvertsTheCommitSet :
    let H : State → Run → Nat → Nat → Nat → Prop := fun (s : State) (r : Run) (f i k : Nat) =>
      s.wf = true ∧ s.pin.phase = 6 ∧ s.flipDue = true ∧ s.applyDue = false ∧ s.groupDue = false ∧ Last s .uq r ∧ s.commit.decided = some (.commit,
        f, i, k) ∧ LinesGood s ∧ s.step.set.Nodup ∧ (∀ d ∈ s.step.set, d < 65536) ∧ r.step < 2 ^ 32
    H
      ({ tCommit tReady 3 with commit := { tReady.commit with decided := some (.commit, 0, 0, 0) }, step := { tReady.step with set := [3, 9, 65535], exclude := [9] } })
      tCommitRun 0 0 0 := by decide +kernel

theorem test_DoubtIsAnsweredFromTheJournal :
    (let H : State → Run → Nat → Prop := fun (s : State) (r : Run) (v : Nat) =>
      Ready s ∧ s.commitRun = some r ∧ r.phase = 2 ∧ s.commitPhase = 2 ∧ s.commit.decided = none ∧ s.isCoord = false ∧ s.commit.lastVote = some v ∧ v
        + tSync s.groupSize ≤ s.beat
    H ({ (tCommit tMember 2).setF oBeatNow 47 0 1 with commit := { tReady.commit with lastVote := some 0 } }) tCommitRun 0) ∧
    (let H : State → Run → Prop := fun (s : State) (r : Run) =>
      Ready s ∧ LinesGood s ∧ Last s .uq r ∧ s.commitRun = some r ∧ s.commitPhase = 4 ∧ s.commit.decided = none ∧ s.commit.doubtFrom + s.voteTimeout
        ≤ s.beat
    H (tCommit tMember 4) tCommitRun) ∧
    (let H : State → Nat → Nat → Journal → Prop := fun (s : State) (src step : Nat) (j : Journal) =>
      Ready s ∧ s.commit.journal.find? (·.step == step) = some j
    H ({ tReady with commit := { tReady.commit with journal := [⟨4, .held, 9⟩] } }) 3 4 ⟨4, .held, 9⟩) ∧
    (let H : State → Nat → Nat → Prop := fun (s : State) (src step : Nat) =>
      Ready s ∧ s.commit.journal.find? (·.step == step) = none
    H tReady 3 4) ∧
    (let H : State → Nat → Nat → Nat → Run → Prop := fun (s : State) (src step f : Nat) (r : Run) =>
      Ready s ∧ s.commitRun = some r ∧ r.step = step ∧ s.commitPhase = 4 ∧ s.commit.decided = none ∧ f < 2 ^ 48
    H (tCommit tMember 4) 1 1 5 tCommitRun) :=
  ⟨by decide +kernel,
    by decide +kernel,
    by decide +kernel,
    by decide +kernel,
    by decide +kernel⟩

theorem test_PartialsAreSummedAndTheTotalReturns :
    (let H : State → Nat → Nat → KX → Prop := fun (s : State) (src step : Nat) (x : KX) =>
      Ready s ∧ s.normKids.contains src = true ∧ s.grad.norm.own = none
    H ({ tCoord 2 with peer := { tReady.peer with adverts := [tMsg 1 1 0, tMsg 2 1 0] } }) 2 1 (0#34)) ∧
    (let H : State → Nat → Nat → KX → Prop := fun (s : State) (src step : Nat) (x : KX) =>
      Ready s ∧ s.normKids.contains src = false
    H tReady 2 1 (0#34)) ∧
    (let H : State → Nat → Nat → Nat → KX → KX → Prop := fun (s : State) (src step p : Nat) (x own : KX) =>
      Ready s ∧ s.normKids = [src] ∧ s.grad.norm.partials = [] ∧ s.grad.norm.own = some (step, own) ∧ s.normParent = some p
    H
      ({ tReady.setReg oCommitGroup 0x0001090000000000#64 with peer := { tReady.peer with adverts := (List.range 9).map (fun k => tMsg (k + 1) 1 0) }, grad := { tReady.grad with norm := { tReady.grad.norm with own := some (1, 5#34) } } })
      9 1 1 (0x1FF000000#34) (5#34)) ∧
    (let H : State → Nat → KX → KX → Prop := fun (s : State) (step : Nat) (total kappa : KX) =>
      Ready s ∧ s.normPlace ≠ 0 ∧ s.f oNormStat 63 32 = step ∧ (s.f oNormStat 31 28 = 2 ∨ s.f oNormStat 31 28 = 4)
    H (tMember.setReg oNormStat 0x120000000#64) 1 (0x1FF000000#34) (0#34) ∧ H (tMember.setReg oNormStat 0x140000000#64) 1 (0x1FF000000#34) (5#34)) ∧
    (let H : State → Prop := fun (s : State) =>
      Ready s ∧ s.f oNormStat 31 28 = 2 ∧ s.grad.norm.sentAt + s.voteTimeout ≤ s.beat
    H (tMember.setReg oNormStat 0x120000000#64)) :=
  ⟨by decide +kernel,
    by decide +kernel,
    by decide +kernel,
    by refine ⟨?_, ?_⟩ <;> decide +kernel,
    by decide +kernel⟩

theorem test_RoundsOpenAndDetachWhoLags :
    (let H : State → Nat → Nat → Nat → Prop := fun (s : State) (src id step : Nat) =>
      Ready s ∧ s.cyanSize ≠ 0 ∧ s.cyanBuild ≠ s.serving ∧ s.emitRun = none ∧ id < 65536 ∧ step < 2 ^ 32 ∧ s.holdsRound s.cyanBuild id step = false
    H (tCyan 1) 1 7 3 ∧ H (tRound 1 1) 1 7 4) ∧
    (let H : State → Nat → Nat → Nat → Prop := fun (s : State) (src id step : Nat) =>
      Ready s ∧ s.cyanSize ≠ 0 ∧ s.cyanBuild ≠ s.serving ∧ (s.ownRound s.cyanBuild = some (id, step) ∨ (s.ownRound s.cyanBuild = none ∧ s.holdsRound
        s.cyanBuild id step = true))
    H (tRound 1 1) 1 7 3 ∧ H (tRound 1 3) 1 7 3) ∧
    (let H : State → Nat → Nat → Nat → Prop := fun (s : State) (src id step : Nat) =>
      (s.cyanSize = 0 ∨ s.cyanBuild = s.serving ∨ (∃ o, s.ownRound s.cyanBuild = some o ∧ o ≠ (id, step))) ∧ Ready s
    H tReady 1 7 3 ∧ H ((tCyan 1).setB oCyanStatb 8 true) 1 7 3 ∧ H tEmit 1 8 3) ∧
    (let H : State → Run → Receiver → Bool → Nat → List (Nat × Nat) → Instr → Prop := fun (s : State) (r : Run) (x : Receiver) (b : Bool) (step : Nat)
      (bs : List (Nat × Nat)) (c : Instr) =>
      Ready s ∧ s.run .sq = some r ∧ (r.opc = 0x40 ∨ r.opc = 0x41) ∧ s.cyan.receivers.find? (fun y => y.inst = x.inst && y.attached) = some x ∧
        s.cyan.bound = some (step, b, bs) ∧ s.issueStopped = true ∧ r.rows = [] ∧ (s.jobsOf .sq r.seq).length ≠ 0 ∧ s.queues.length = 4 ∧ x.inst <
        256 ∧ ((c = .mcDetach x.inst ∧ (s.f oMcCfg 3 0 < s.lagOf x ∨ s.linkDown x.inst = true)) ∨ c = .roundOpenRefused x.inst)
    H tEmit ({ tRun 1 0x40 with step := 3 }) ⟨1, true, 9, false, false⟩ true 3 [(9, 0)] (.mcDetach 1) ∧ H tEmit ({ tRun 1 0x40 with step := 3 }) ⟨1,
      true, 9, false, false⟩ true 3 [(9, 0)] (.roundOpenRefused 1)) :=
  ⟨by refine ⟨?_, ?_⟩ <;> decide +kernel,
    by refine ⟨?_, ?_⟩ <;> decide +kernel,
    ⟨⟨.inl (by decide +kernel), by decide +kernel⟩, ⟨.inr (.inl (by decide +kernel)), by decide +kernel⟩, ⟨.inr (.inr ⟨_, rfl, by decide +kernel⟩), by decide +kernel⟩⟩,
    by refine ⟨?_, ?_⟩ <;> decide +kernel⟩

theorem test_SlotsAreWrittenAndAcknowledged :
    (let H : State → Bool → Nat → Nat → Nat → Nat → Nat → List Byte → Prop := fun (s : State) (b : Bool) (src id step entry ofs : Nat) (data : List
      Byte) =>
      Ready s ∧ LinesGood s ∧ [false, true].find? (fun b => s.holdsRound b id step) = some b ∧ entry < mapCount s.liveMap ∧ (mapEntry s.liveMap
        entry).src = src ∧ (mapSet s.liveMap (mapEntry s.liveMap entry).dset).contains s.me = true ∧ ofs + data.length ≤ (mapEntry s.liveMap
        entry).size ∧ s.cyanBase b + (mapEntry s.liveMap entry).dofs + ofs + data.length ≤ 0x10000000000
    H (tRound 1 1) true 1 7 3 0 200 (tData 56) ∧ H (tRound 1 3) true 1 7 3 0 0 (tData 256)) ∧
    (let H : State → Nat → Nat → Nat → Nat → Nat → List Byte → Prop := fun (s : State) (src id step entry ofs : Nat) (data : List Byte) =>
      Ready s ∧ s.holdsRound false id step = false ∧ s.holdsRound true id step = false
    H (tRound 1 2) 1 7 3 0 0 (tData 256)) ∧
    (let H : State → Nat → Nat → Nat → Prop := fun (s : State) (src entry ofs : Nat) =>
      Ready s ∧ s.emitRun = none ∧ (s.ringAwaits src entry ofs = true ∨ s.catchupAwaits src entry ofs = false)
    H ({ tReady with cyan := { tReady.cyan with ring := [⟨0, 0, [1]⟩, ⟨1, 0, []⟩, ⟨2, 0, [1]⟩] } }) 1 0 0) :=
  ⟨by refine ⟨?_, ?_⟩ <;> decide +kernel,
    by decide +kernel,
    by decide +kernel⟩

theorem test_CatchupsRunAndReceiversGoStale :
    (let H : State → Catchup → List Catchup → Prop := fun (s : State) (c : Catchup) (rest : List Catchup) =>
      Ready s ∧ s.cyan.catchups = c :: rest ∧ c.running = false ∧ c.opened = false ∧ c.seq ≠ 2 ^ 32 ∧ (s.run .sq).map (·.seq) ≠ some c.seq
    H ({ tReady with cyan := { tReady.cyan with catchups := [tCatch false] } }) (tCatch false) []) ∧
    (let H : State → Catchup → List Catchup → Prop := fun (s : State) (c : Catchup) (rest : List Catchup) =>
      Ready s ∧ s.cyan.catchups = c :: rest ∧ c.running = true ∧ c.acked + s.voteTimeout ≤ s.beat
    H ({ (tReady.setReg oCommitGroup 0#64).setF oMcStat 15 0 2 with cyan := { tReady.cyan with catchups := [tCatch true] } }) (tCatch true) []) ∧
    (let H : State → Nat → Bool → Prop := fun (s : State) (src : Nat) (b : Bool) =>
      Ready s ∧ s.roundOf src = some b ∧ (s.cyanBuf b).srcs.any (fun r => r.src = src && r.detached) = false ∧ (s.cyanBuf b).localDone = true ∧
        (s.cyanBuf b).srcs.any (fun r => r.src = src && r.received < r.expected) = true
    H (tRound 1 1) 1 true ∧ H (tRound 1 3) 1 true) ∧
    (let H : State → Nat → Bool → Prop := fun (s : State) (src : Nat) (b : Bool) =>
      Ready s ∧ s.roundOf src = some b
    H (tRound 1 1) 1 true) ∧
    (let H : State → Bool → Prop := fun (s : State) (b : Bool) =>
      Ready s ∧ s.cyanState b = 3 ∧ s.cyanState (!b) ≠ 3 ∧ (s.cyanBuf b).lastData + s.voteTimeout ≤ s.beat
    H ((tRound 1 3).setReg oCommitGroup 0#64) true) :=
  ⟨by decide +kernel,
    by decide +kernel,
    by refine ⟨?_, ?_⟩ <;> decide +kernel,
    by decide +kernel,
    by decide +kernel⟩

theorem test_TheMirrorStoreServesThePartner :
    (let H : State → Nat → Nat → Nat → Nat → Snap → List SnapRecord → Prop := fun (s : State) (src id step h : Nat) (x : Snap) (records : List
      SnapRecord) =>
      Ready s ∧ s.mirrors = true ∧ s.halfOf false false id = some (h, x) ∧ h < s.res.mirHalves.length
    H (tMirror false) 5 4 2 1 (tSnap false) [tRec 9, tRec 10]) ∧
    (let H : State → Nat → Nat → Nat → Nat → Snap → SnapTile → Prop := fun (s : State) (src id step h : Nat) (x : Snap) (tile : SnapTile) =>
      Ready s ∧ s.mirrors = true ∧ s.halfOf false false id = some (h, x) ∧ h < s.res.mirHalves.length
    H (tMirror false) 5 4 2 1 (tSnap false) ⟨⟨10, 0⟩, [2#8, 3#8], 7#32⟩ ∧ H (tMirror false) 5 4 2 1 (tSnap false) ⟨⟨9, 0⟩, [2#8, 3#8], 7#32⟩) ∧
    (let H : State → Nat → Nat → Nat → Snap → Prop := fun (s : State) (src id h : Nat) (x : Snap) =>
      Ready s ∧ s.mirrors = true ∧ s.halfOf false false id = some (h, x) ∧ h < s.res.mirHalves.length
    H (tMirror false) 5 4 1 (tSnap false)) ∧
    (let H : State → Nat → Nat → BitVec 32 → List Byte → Prop := fun (s : State) (src page : Nat) (digest : BitVec 32) (data : List Byte) =>
      Ready s ∧ s.mirrors = true ∧ s.channels = 0
    H (tMirror false) 5 4 (1#32) [1#8]) ∧
    (let H : State → Nat → Nat → Nat → List SnapTile → List SnapRecord → Prop := fun (s : State) (src id step : Nat) (ts : List SnapTile) (rs : List
      SnapRecord) =>
      Ready s ∧ s.mirrors = false
    H tReady 5 4 2 [⟨⟨9, 0⟩, [2#8, 3#8], 7#32⟩] []) ∧
    (let H : State → Nat → Nat → BitVec 32 → Prop := fun (s : State) (src page : Nat) (digest : BitVec 32) =>
      Ready s
    H ({ tReady with tier := { tReady.tier with mirPages := [(4, [1#8])] } }) 5 4 (crc32c [1#8]) ∧ H
      ({ tReady with tier := { tReady.tier with mirPages := [(4, [1#8])] } }) 5 4 (0#32)) ∧
    (let H : State → Nat → Nat → Nat → Nat → Prop := fun (s : State) (src id first last : Nat) =>
      Ready s ∧ id ≠ 0
    H (tMirror true) 5 4 0 9 ∧ H (tMirror true) 5 6 0 9) ∧
    (let H : State → Nat → Nat → Nat → Prop := fun (s : State) (src first last : Nat) =>
      Ready s ∧ s.newestSeal false = none
    H tReady 5 0 9) ∧
    (let H : State → Nat → Nat → Nat → Snap → TileId → Prop := fun (s : State) (src id h : Nat) (x : Snap) (t : TileId) =>
      Ready s ∧ s.halfOf false true id = some (h, x)
    H (tMirror true) 5 4 1 (tSnap true) ⟨9, 0⟩ ∧ H (tMirror true) 5 4 1 (tSnap true) ⟨9, 1⟩) ∧
    (let H : State → Nat → Nat → TileId → Prop := fun (s : State) (src id : Nat) (t : TileId) =>
      Ready s ∧ s.halfOf false true id = none ∧ s.halfOf false false id = none
    H tReady 5 4 ⟨9, 0⟩) :=
  ⟨by decide +kernel,
    by refine ⟨?_, ?_⟩ <;> decide +kernel,
    by decide +kernel,
    by decide +kernel,
    by decide +kernel,
    by refine ⟨?_, ?_⟩ <;> decide +kernel,
    by refine ⟨?_, ?_⟩ <;> decide +kernel,
    by decide +kernel,
    by refine ⟨?_, ?_⟩ <;> decide +kernel,
    by decide +kernel⟩

theorem test_RestoresWaitForThePartner :
    (let H : State → Run → RestoreSt → Nat → Nat → List DigestTable → Prop := fun (s : State) (r : Run) (x : RestoreSt) (id step : Nat) (ts : List
      DigestTable) =>
      Ready s ∧ Last s .sq r ∧ r.opc = 0x43 ∧ r.fromPartner = true ∧ s.res.restore = some x ∧ x.tables = none ∧ x.waited = false ∧ ts ≠ [] ∧
        s.restBad r (ts.map (·.record)) = false
    H (tRestore true) (tRestRun true) tRest 4 2 [tTable 0#32]) ∧
    (let H : State → Run → RestoreSt → Nat → Nat → List DigestTable → Prop := fun (s : State) (r : Run) (x : RestoreSt) (id step : Nat) (ts : List
      DigestTable) =>
      Ready s ∧ Last s .sq r ∧ r.opc = 0x43 ∧ r.fromPartner = true ∧ s.res.restore = some x ∧ x.tables = none ∧ x.waited = false ∧ (ts = [] ∨
        s.restBad r (ts.map (·.record)) = true)
    H (tRestore true) (tRestRun true) tRest 4 2 []) ∧
    (let H : State → Run → RestoreSt → Nat → Nat → List DigestTable → Prop := fun (s : State) (r : Run) (x : RestoreSt) (id step : Nat) (ts : List
      DigestTable) =>
      Ready s ∧ s.run .sq = some r ∧ r.opc = 0x43 ∧ r.fromPartner = false ∧ s.res.restore = some x ∧ x.tables = none ∧ x.waited = false
    H (tRestore false) (tRestRun false) tRest 4 2 [tTable 0#32] ∧ H (tRestore false) (tRestRun false) tRest 4 2 []) ∧
    (let H : State → Run → RestoreSt → Prop := fun (s : State) (r : Run) (x : RestoreSt) =>
      Ready s ∧ Last s .sq r ∧ r.opc = 0x43 ∧ r.fromPartner = true ∧ s.res.restore = some x ∧ x.tables = none ∧ x.waited = false ∧ x.asked +
        s.voteTimeout ≤ s.beat ∧ s.hears x.src = true
    H ({ (tRestore true).setReg oCommitGroup 0#64 with peer := { tReady.peer with adverts := [tMsg 5 0 0] } }) (tRestRun true) tRest) ∧
    (let H : State → Run → RestoreSt → Prop := fun (s : State) (r : Run) (x : RestoreSt) =>
      Ready s ∧ Last s .sq r ∧ r.opc = 0x43 ∧ r.fromPartner = true ∧ s.res.restore = some x ∧ x.tables = none ∧ x.waited = false ∧ x.asked +
        s.voteTimeout ≤ s.beat ∧ s.hears x.src = false
    H ((tRestore true).setReg oCommitGroup 0#64) (tRestRun true) tRest) ∧
    (let H : State → Run → RestoreSt → Prop := fun (s : State) (r : Run) (x : RestoreSt) =>
      Ready s ∧ s.run .sq = some r ∧ r.opc = 0x43 ∧ r.fromPartner = false ∧ s.res.restore = some x ∧ x.tables = none ∧ x.waited = false ∧ x.asked +
        s.voteTimeout ≤ s.beat
    H ((tRestore false).setReg oCommitGroup 0#64) (tRestRun false) tRest) ∧
    (let H : State → RestoreSt → List DigestTable → Prop := fun (s : State) (x : RestoreSt) (ts : List DigestTable) =>
      Ready s ∧ s.run .sq = none ∧ s.res.restore = some x ∧ x.tables = some ts ∧ s.b oRestoreStat 31 = true ∧ (ts = [] ∨ s.halfOf true true x.snapId
        = none)
    H ({ tUnconf 0#32 with res := { (tUnconf 0#32).res with halves := [none, none] } }) ({ tRest with tables := some [tTable 0#32] }) [tTable 0#32]) ∧
    (let H : State → RestoreSt → List DigestTable → Nat → Snap → Prop := fun (s : State) (x : RestoreSt) (ts : List DigestTable) (h : Nat) (y : Snap)
      =>
      let digest := fun (l : List DigestTable) (d i : Nat) => (l.find? (·.record.desc == d)).bind (fun e => nth none e.digests i)
      (∀ d i, digest (y.tablesOf x.first x.last) d i = digest ts d i) ∧ Ready s ∧ s.run .sq = none ∧ s.res.restore = some x ∧ x.tables = some ts ∧
        s.b oRestoreStat 31 = true ∧ s.halfOf true true x.snapId = some (h, y) ∧ y.tablesOf x.first x.last ≠ [] ∧ ts ≠ []
    H (tUnconf (crc32c [1#8])) ({ tRest with tables := some [tTable (crc32c [1#8])] }) [tTable (crc32c [1#8])] 0 (tSnap true)) ∧
    (let H : State → RestoreSt → List DigestTable → Nat → Snap → Prop := fun (s : State) (x : RestoreSt) (ts : List DigestTable) (h : Nat) (y : Snap)
      =>
      let digest := fun (l : List DigestTable) (d i : Nat) => (l.find? (·.record.desc == d)).bind (fun e => nth none e.digests i)
      (∃ d i, digest (y.tablesOf x.first x.last) d i ≠ digest ts d i) ∧ Ready s ∧ s.run .sq = none ∧ s.res.restore = some x ∧ x.tables = some ts ∧
        s.b oRestoreStat 31 = true ∧ s.halfOf true true x.snapId = some (h, y) ∧ y.tablesOf x.first x.last ≠ [] ∧ ts ≠ []
    H (tUnconf 0#32) ({ tRest with tables := some [tTable 0#32] }) [tTable 0#32] 0 (tSnap true)) :=
  ⟨by decide +kernel,
    by decide +kernel,
    by refine ⟨?_, ?_⟩ <;> decide +kernel,
    by decide +kernel,
    by decide +kernel,
    by decide +kernel,
    by decide +kernel,
    ⟨fun d i => congrArg (fun l : List DigestTable => (l.find? (·.record.desc == d)).bind (fun e => nth none e.digests i)) tables_eq, by decide +kernel⟩,
    ⟨⟨9, 0, by decide +kernel⟩, by decide +kernel⟩⟩

theorem test_LostSnapshotTilesAreRepaired :
    (let H : State → Nat → Nat → Prop := fun (s : State) (src id : Nat) =>
      Ready s ∧ s.partner = some src ∧ id ≠ 0 ∧ id < 2 ^ 32
    H ({ (tPartner.setF oSnapStat 31 0 4).setB oSnapOpen 4 true with res := { tReady.res with halves := [some (tSnap true), none] } }) 5 4) ∧
    (let H : State → Nat → Nat → Nat → Snap → StoreTile → Prop := fun (s : State) (src id h : Nat) (x : Snap) (e : StoreTile) =>
      Ready s ∧ s.run .sq = none ∧ s.partner = some src ∧ s.channels = 0 ∧ s.halfOf true true id = some (h, x) ∧ x.tiles.find? (·.id == e.id) = some
        e ∧ crc32c e.bytes = e.digest
    H ({ tPartner with res := { tReady.res with halves := [none, some (tSnap true)] } }) 5 4 1 (tSnap true) ⟨⟨9, 0⟩, [1#8], crc32c [1#8], 0⟩) ∧
    (let H : State → Nat → Nat → Nat → Snap → StoreTile → Prop := fun (s : State) (src id h : Nat) (x : Snap) (e : StoreTile) =>
      Ready s ∧ s.run .sq = none ∧ s.partner = some src ∧ h < s.res.halves.length ∧ s.halfOf true true id = some (h, x) ∧ x.tiles.find? (·.id ==
        e.id) = some e
    H ({ tPartner with res := { tReady.res with halves := [none, some (tSnap true)] } }) 5 4 1 (tSnap true) ⟨⟨9, 0⟩, [1#8], crc32c [1#8], 0⟩) :=
  ⟨by decide +kernel,
    by decide +kernel,
    by decide +kernel⟩

theorem test_FramesReadBackAsSent :
    let H : PortSt → Frame → Nat → Prop := fun (x : PortSt) (f : Frame) (count : Nat) =>
      4 ≤ x.lanes.length ∧ x.lanes.length ≤ 8 ∧ x.lanes.Nodup ∧ (∀ l ∈ x.lanes, l < 9) ∧ (∀ e ∈ x.bips, e.2 < 256) ∧ (x.bips.map (·.1)).Nodup ∧ count
        < 2 ^ 48 ∧ f.cls < 256 ∧ f.src < 256 ∧ f.seq < 2 ^ 32 ∧ f.dest.Pairwise (· < ·) ∧ (∀ d ∈ f.dest, d < 256) ∧ f.ackClass < 256 ∧ f.ackSeq < 2 ^
        32 ∧ f.swap < 256 ∧ f.payload.length ≤ 752 * x.lanes.length ∧ f.nak.all (fun e => e.1 < 255 && e.2 < 2 ^ 32) = true ∧ f.refuse.all (fun e =>
        e.1 < 2 ^ 32 && 0 < e.2 && e.2 < 256) = true
    H ({ PortSt.down with lanes := [0, 1, 2, 3], bips := [(0, 7), (3, 255)] }) ⟨5, 255, 4294967295, [0, 255], 255, 4294967295, 8, List.replicate 3008
      1#8, some (254, 4294967295), some (4294967295, 255)⟩ 281474976710655 := by decide +kernel

theorem test_PeerPortsKeepOrderAndLanes :
    (let H : State → Nat → List (List (BitVec 128)) → Prop := fun (s : State) (p : Nat) (ws : List (List (BitVec 128))) =>
      let x := s.port p
      let rx := x.readFrame ws
      let f := rx.f
      let want := nth 0 x.expect f.cls
      s.wf = true ∧ 2 ≤ s.pin.phase ∧ p < 8 ∧ s.peer.ports.length = 8 ∧ s.portUp p = true ∧ (x.noteLanes rx).badLanes = [] ∧ rx.good = true ∧ 1 ≤
        f.cls ∧ f.cls ≤ 5 ∧ x.expect.length = 6 ∧ f.seq = want ∧ f.nak = none ∧ f.swap = 0xFF ∧ f.dest = [s.me]
    H (tPort [0, 1, 2, 3] none) 7 (tWords (tFrame 5))) ∧
    (let H : State → Nat → List (List (BitVec 128)) → Prop := fun (s : State) (p : Nat) (ws : List (List (BitVec 128))) =>
      let x := s.port p
      let rx := x.readFrame ws
      let f := rx.f
      let want := nth 0 x.expect f.cls
      s.wf = true ∧ 2 ≤ s.pin.phase ∧ p < 8 ∧ s.peer.ports.length = 8 ∧ s.portUp p = true ∧ (x.noteLanes rx).badLanes = [] ∧ rx.good = true ∧ 1 ≤
        f.cls ∧ f.cls ≤ 5 ∧ f.seq ≠ want ∧ f.nak = none ∧ f.swap = 0xFF
    H (tPort [0, 1, 2, 3] none) 7 (tWords { tFrame 5 with seq := 1 }) ∧ H (tPort [0, 1, 2, 3] none) 7 (tWords { tFrame 5 with seq := 4294967295 })) ∧
    (let H : State → Nat → List (List (BitVec 128)) → Nat → Nat → Prop := fun (s : State) (p : Nat) (ws : List (List (BitVec 128))) (c : Nat) (n :
      Nat) =>
      let x := s.port p
      let rx := x.readFrame ws
      let f := rx.f
      s.wf = true ∧ 2 ≤ s.pin.phase ∧ p < 8 ∧ s.peer.ports.length = 8 ∧ s.portUp p = true ∧ (x.noteLanes rx).badLanes = [] ∧ rx.good = true ∧ f.cls =
        0 ∧ f.nak = some (c, n) ∧ f.swap = 0xFF ∧ s.run .sq = none
    H
      (({ tPort [0, 1, 2, 3] none with peer := { (tPort [0, 1, 2, 3] none).peer with ports := setNth (tPort [0, 1, 2, 3] none).peer.ports 7 { (tPort [0, 1, 2, 3] none).port 7 with keep := [⟨tFrame 5, none⟩] } } }))
      7 (tWords { tFrame 0 with nak := some (5, 0) }) 5 0) ∧
    (let H : State → Nat → List (List (BitVec 128)) → Prop := fun (s : State) (p : Nat) (ws : List (List (BitVec 128))) =>
      let x := s.port p
      let rx := x.readFrame ws
      s.wf = true ∧ 2 ≤ s.pin.phase ∧ p < 8 ∧ s.peer.ports.length = 8 ∧ s.portUp p = true ∧ (x.noteLanes rx).badLanes = [] ∧ rx.good = false
    H (tPort [0, 1, 2, 3] none) 7 ((tWords (tFrame 5)).map (fun ws => ws.take 1 ++ List.replicate 49 0#128))) ∧
    (let H : State → Nat → List (List (BitVec 128)) → Prop := fun (s : State) (p : Nat) (ws : List (List (BitVec 128))) =>
      let x := s.port p
      let rx := x.readFrame ws
      let f := rx.f
      s.wf = true ∧ 2 ≤ s.pin.phase ∧ p < 8 ∧ s.peer.ports.length = 8 ∧ s.portUp p = true ∧ (x.noteLanes rx).badLanes = [] ∧ rx.good = true ∧ 5 <
        f.cls
    H (tPort [0, 1, 2, 3] none) 7 (tWords (tFrame 6))) ∧
    (let H : State → Nat → Nat → Nat → Prop := fun (s : State) (p peer locked : Nat) =>
      let ls := (List.range 9).filter (fun l => locked.testBit l)
      s.wf = true ∧ 2 ≤ s.pin.phase ∧ p < 8 ∧ s.peer.ports.length = 8 ∧ s.b oPlCfg p = true ∧ peer < 256 ∧ ls.length < 4
    H (tReady.setB oPlCfg 7 true) 7 5 7) ∧
    (let H : State → Nat → Nat → Nat → Prop := fun (s : State) (p peer locked : Nat) =>
      let ls := (List.range 9).filter (fun l => locked.testBit l)
      s.wf = true ∧ 2 ≤ s.pin.phase ∧ p < 8 ∧ s.peer.ports.length = 8 ∧ s.b oPlCfg p = true ∧ peer < 256 ∧ 4 ≤ ls.length
    H (tReady.setB oPlCfg 7 true) 7 5 15 ∧ H (tReady.setB oPlCfg 7 true) 7 5 511 ∧ H (tReady.setB oPlCfg 0 true) 0 255 510) ∧
    (let H : State → Nat → Nat → Nat → Prop := fun (s : State) (p l k : Nat) =>
      s.wf = true ∧ 2 ≤ s.pin.phase ∧ p < 8 ∧ l < 9 ∧ s.peer.ports.length = 8 ∧ s.portUp p = true ∧ (s.port p).spare = some k ∧ k ≠ l ∧ (s.port
        p).lanes.contains l = true
    H (tPort [0,1,2,3,4,5,6,7] (some 8)) 7 0 8) ∧
    (let H : State → Nat → Nat → Prop := fun (s : State) (p l : Nat) =>
      let rest := (s.port p).lanes.filter (· != l)
      s.wf = true ∧ 2 ≤ s.pin.phase ∧ p < 8 ∧ s.peer.ports.length = 8 ∧ s.portUp p = true ∧ (s.port p).spare = none ∧ (s.port p).lanes.contains l =
        true ∧ 4 ≤ rest.length
    H (tPort [1,2,3,4,8] none) 7 8) ∧
    (let H : State → Nat → Nat → Prop := fun (s : State) (p l : Nat) =>
      let rest := (s.port p).lanes.filter (· != l)
      s.wf = true ∧ 2 ≤ s.pin.phase ∧ p < 8 ∧ s.peer.ports.length = 8 ∧ s.portUp p = true ∧ (s.port p).spare = none ∧ (s.port p).lanes.contains l =
        true ∧ rest.length < 4
    H (tPort [0,1,2,3] none) 7 3) ∧
    (let H : State → Nat → Nat → Nat → Prop := fun (s : State) (p l k : Nat) =>
      Ready s ∧ p < 8 ∧ s.peer.ports.length = 8 ∧ l < 9 ∧ s.portUp p = true ∧ (s.port p).spare = some k ∧ (s.port p).lanes.contains l = true
    H (tPort [0,1,2,3,4,5,6,7] (some 8)) 7 7 8) :=
  ⟨by decide +kernel,
    by refine ⟨?_, ?_⟩ <;> decide +kernel,
    by decide +kernel,
    by decide +kernel,
    by decide +kernel,
    by decide +kernel,
    by refine ⟨?_, ?_, ?_⟩ <;> decide +kernel,
    by decide +kernel,
    by decide +kernel,
    by decide +kernel,
    by decide +kernel⟩

theorem test_RingsAreClaimedAndTilesComplete :
    (let H : State → Queue → Run → StreamWork → GRing → Nat → Prop := fun (s : State) (q : Queue) (r : Run) (w : StreamWork) (x : GRing) (k : Nat) =>
      (∀ p, p ≠ q → s.run p = none) ∧ s.streamWork r = some w ∧ Ready s ∧ s.run q = some r ∧ w.group.find? (fun y => y.ring == k) = some x ∧
        s.nextClaim w x < w.feed.tiles ∧ k < s.rings.length ∧ s.mayIssue q { r with issued := false } = true ∧ w.gate x (s.nextClaim w x) = true ∧ (∀
        y ∈ w.group, (s.ring y.ring).slots ≠ 0 → (s.ring y.ring).user = userId q r.seq) ∧ (s.ring k).entries = [] ∧ 0 < (s.ring k).slots ∧ 0 <
        (s.ring k).depth ∧ 0 < (s.ring k).rsv ∧ s.engineStopped (engineOf k) = false
    H (tSlateAt tSlate) .sq tSlate (tWork (tSlateAt tSlate) tSlate) ⟨48, 4, false⟩ 48 ∧ H (tSlateAt tSlate) .sq tSlate (tWork (tSlateAt tSlate)
      tSlate) ⟨50, 4, true⟩ 50) ∧
    (let H : State → Queue → Run → StreamWork → GRing → Nat → Prop := fun (s : State) (q : Queue) (r : Run) (w : StreamWork) (x : GRing) (k : Nat) =>
      (∀ p, p ≠ q → s.run p = none) ∧ s.streamWork r = some w ∧ Ready s ∧ s.run q = some r ∧ w.group.find? (fun y => y.ring == k) = some x ∧
        s.nextClaim w x < w.feed.tiles ∧ k < s.rings.length ∧ (s.mayIssue q { r with issued := false } = false ∨ w.gate x (s.nextClaim w x) = false)
    H ({ tSlateAt tSlate with quiesced := true }) .sq tSlate (tWork ({ tSlateAt tSlate with quiesced := true }) tSlate) ⟨48, 4, false⟩ 48) ∧
    (let H : State → Queue → Run → StreamWork → GRing → Nat → Prop := fun (s : State) (q : Queue) (r : Run) (w : StreamWork) (x : GRing) (k : Nat) =>
      (∀ p, p ≠ q → s.run p = none) ∧ s.streamWork r = some w ∧ Ready s ∧ s.run q = some r ∧ w.group.find? (fun y => y.ring == k) = some x ∧
        s.nextClaim w x < w.feed.tiles ∧ k < s.rings.length ∧ (∀ y ∈ w.group, (s.ring y.ring).slots ≠ 0 → (s.ring y.ring).user = userId q r.seq) ∧
        ((s.ring k).space = 0 ∨ (s.ring k).depth ≤ (s.ring k).ahead)
    H ((tSlateAt tSlate).setRing 48 { (tSlateAt tSlate).ring 48 with depth := 0 }) .sq tSlate (tWork ((tSlateAt tSlate).setRing 48
      { (tSlateAt tSlate).ring 48 with depth := 0 }) tSlate) ⟨48, 4, false⟩ 48) ∧
    (let H : State → Queue → Run → Job → Prop := fun (s : State) (q : Queue) (r : Run) (j : Job) =>
      Ready s ∧ Last s q r ∧ r.opc ∈ [0x10, 0x11, 0x20, 0x21, 0x30, 0x31, 0x44, 0x45, 0x47] ∧ opcOk q r.opc = true ∧ r.aborting = false ∧
        s.jobs.find? (fun j => j.q = q && j.seq = r.seq) = some j ∧ s.unitWait r = false ∧ j.pages = []
    H ({ tSlateAt { tSlate with issued := true } with jobs := [tJob 0] }) .sq ({ tSlate with issued := true }) (tJob 0) ∧ H
      ({ tSlateAt { tSlate with issued := true } with jobs := [tJob 0, tJob 1] }) .sq ({ tSlate with issued := true }) (tJob 0)) :=
  ⟨⟨⟨forall_queue (by decide +kernel), tWork_eq _ _ (by decide +kernel), by decide +kernel⟩, ⟨forall_queue (by decide +kernel), tWork_eq _ _ (by decide +kernel), by decide +kernel⟩⟩,
    ⟨forall_queue (by decide +kernel), tWork_eq _ _ (by decide +kernel), by decide +kernel⟩,
    ⟨forall_queue (by decide +kernel), tWork_eq _ _ (by decide +kernel), by decide +kernel⟩,
    by refine ⟨?_, ?_⟩ <;> decide +kernel⟩

theorem test_StreamsStopAndResume :
    (let H : State → Queue → Run → StreamWork → GRing → Nat → Nat → Nat → Prop := fun (s : State) (q : Queue) (r : Run) (w : StreamWork) (x : GRing)
      (k i page : Nat) =>
      s.streamWork r = some w ∧ Ready s ∧ s.run q = some r ∧ k < 32 ∧ x ∈ w.group ∧ x.out = false ∧ engineOf x.ring = k ∧ (∀ y ∈ w.group, y.out =
        false → y ≠ x → engineOf y.ring ≠ k) ∧ ((s.fillAll q w.desc w.feed w.group).ring x.ring).standsAt w.desc = some i ∧ (w.name i).desc < 65536 ∧
        (w.name i).tile < 2 ^ 32 ∧ page ∈ (s.fillAll q w.desc w.feed w.group).pagesOf (w.feed.reads x.ring i) ∧ page < 2 ^ 22 ∧ (s.page page).st =
        .fetching ∧ s.stops.any (fun y => y.engine = k && y.q = q) = false
    H tFetched .sq tTiered (tWork tFetched tTiered) ⟨48, 4, false⟩ 30 0 3) ∧
    (let H : State → Stop → Run → Prop := fun (s : State) (x : Stop) (r : Run) =>
      Ready s ∧ x.engine < 32 ∧ s.stops = [x] ∧ s.run x.q = some r ∧ r.seq = x.seq ∧ s.queues.length = 4 ∧ (s.page x.page).st = .resident
    H ({ tSlateAt tSlate with stops := [⟨30, .sq, 1, 9, 0, 3⟩], tier := { tTier.tier with pages := [(3, tPage .resident)] } }) ⟨30, .sq, 1, 9, 0, 3⟩
      tSlate) ∧
    (let H : State → Stop → Run → Prop := fun (s : State) (x : Stop) (r : Run) =>
      Ready s ∧ x.engine < 32 ∧ s.stops = [x] ∧ s.run x.q = some r ∧ r.seq = x.seq ∧ s.queues.length = 4 ∧ (s.page x.page).st = .poisoned
    H ({ tSlateAt tSlate with stops := [⟨30, .sq, 1, 9, 0, 3⟩], tier := { tTier.tier with pages := [(3, tPage .poisoned)] } }) ⟨30, .sq, 1, 9, 0, 3⟩
      tSlate) ∧
    (let H : State → Stop → Run → Prop := fun (s : State) (x : Stop) (r : Run) =>
      Ready s ∧ x.engine < 32 ∧ s.stops = [x] ∧ s.run x.q = some r ∧ r.seq = x.seq ∧ s.queues.length = 4 ∧ (s.page x.page).st = .fetching
    H ({ tSlateAt tSlate with stops := [⟨30, .sq, 1, 9, 0, 3⟩], tier := { tTier.tier with pages := [(3, tPage .fetching)] } }) ⟨30, .sq, 1, 9, 0, 3⟩
      tSlate) :=
  ⟨⟨tWork_eq _ _ (by decide +kernel), by decide +kernel⟩,
    by decide +kernel,
    by decide +kernel,
    by decide +kernel⟩

theorem test_TheWatchdogTrips :
    (let H : State → Queue → Run → Nat → Prop := fun (s : State) (q : Queue) (r : Run) (k : Nat) =>
      Ready s ∧ LinesGood s ∧ Last s q r ∧ r.opc ∈ [0x10, 0x11, 0x20, 0x21, 0x22, 0x30, 0x31, 0x32, 0x40, 0x41, 0x42, 0x43, 0x44, 0x45, 0x47] ∧ opcOk
        q r.opc = true ∧ k < 256 ∧ 2 ≤ (s.ring (s.lastRing k)).stalls ∧ (s.ring (s.lastRing k)).user = userId q r.seq
    H ({ (tSlateAt tSlate).setRing 48 { (tSlateAt tSlate).ring 48 with stalls := 2 } with jobs := [tJob 0] }) .sq tSlate 30) ∧
    (let H : State → Nat → Prop := fun (s : State) (k : Nat) =>
      Ready s ∧ (s.ring (s.lastRing k)).stalls < 2
    H tReady 5) :=
  ⟨by decide +kernel,
    by decide +kernel⟩

theorem test_PromotionsStartOrGoLate :
    (let H : State → Nat → Nat → List Nat → Prop := fun (s : State) (i f : Nat) (rest : List Nat) =>
      Ready s ∧ NothingWaits s ∧ s.b oAmberStat 1 = false ∧ i < s.f oTierMap 22 0 ∧ s.tier.waits.any (fun w => w.page = i && !(w.q = 3 && w.who =
        readThrough)) = true ∧ ((s.page i).st = .zero ∨ (s.page i).st = .flash) ∧ s.tier.free = f :: rest ∧ (∀ k, k < 128 → s.unitAt (128 * i + k) =
        none)
    H ({ tTier with tier := { tTier.tier with waits := [⟨15, 0, 3, false, 0⟩] } }) 15 5 [6] ∧ H
      ({ tTier with tier := { tTier.tier with waits := [⟨15, 0, 3, false, 0⟩], pages := [(15, tPage .flash)] } }) 15 5 [6]) ∧
    (let H : State → Nat → Nat → Nat → Nat → List Nat → Prop := fun (s : State) (i f u p : Nat) (rest : List Nat) =>
      Ready s ∧ NothingWaits s ∧ s.b oAmberStat 1 = false ∧ i < s.f oTierMap 22 0 ∧ s.tier.waits.any (fun w => w.page = i && !(w.q = 3 && w.who =
        readThrough)) = true ∧ (s.page i).st = .flash ∧ s.tier.free = f :: rest ∧ s.tier.units = [(u, p)] ∧ u / 128 = i ∧ p < 2 ^ 32 - 1 ∧ s.chFailed
        (p / 2 ^ 29) = false ∧ s.tier.ops = [] ∧ s.tier.backlog = []
    H ({ tTier with tier := { tTier.tier with waits := [⟨3, 0, 3, false, 0⟩], pages := [(3, tPage .flash)], units := [(385, 1000)] } }) 3 5 385 1000
      [6]) ∧
    (let H : State → Wait → Prop := fun (s : State) (w : Wait) =>
      Ready s ∧ NothingWaits s ∧ s.tier.waits = [w] ∧ w.late = false ∧ w.q ≤ 5 ∧ w.since + s.f oTierCfg 63 48 ≤ s.beat ∧ (s.page w.page).served =
        false
    H ({ tTier with tier := { tTier.tier with waits := [⟨3, 0, 3, false, 0⟩] }, live := (tTier.setF oTierCfg 63 48 0).live }) ⟨3, 0, 3, false, 0⟩ ∧ H
      ({ tTier with tier := { tTier.tier with waits := [⟨3, 0, 5, false, 0⟩] }, live := (tTier.setF oTierCfg 63 48 0).live }) ⟨3, 0, 5, false, 0⟩) ∧
    (let H : State → Wait → Prop := fun (s : State) (w : Wait) =>
      Ready s ∧ NothingWaits s ∧ s.tier.waits = [w] ∧ w.late = false ∧ w.q ≤ 5 ∧ s.beat < w.since + s.f oTierCfg 63 48
    H ({ tTier.setF oTierCfg 63 48 1 with tier := { tTier.tier with waits := [⟨3, 0, 3, false, 0⟩] } }) ⟨3, 0, 3, false, 0⟩) :=
  ⟨by refine ⟨?_, ?_⟩ <;> decide +kernel,
    by decide +kernel,
    by refine ⟨?_, ?_⟩ <;> decide +kernel,
    by decide +kernel⟩

theorem test_LostPagesAreFetchedOrPoisoned :
    (let H : State → Nat → Nat → Nat → List Byte → Prop := fun (s : State) (src i f : Nat) (bs : List Byte) =>
      bs.length = 2 ^ 21 ∧ crc32c bs = (s.page i).digest ∧ Ready s ∧ NothingWaits s ∧ s.reg oChFailed = 0#64 ∧ s.partner = some src ∧
        s.tier.fetches.any (·.1 == i) = true ∧ (s.page i).frame = some f
    H
      ({ tTier with tier := { tTier.tier with fetches := [(3, 0)], pages := [(3, { tPage .fetching with frame := some 4, got := true, digest := crc32c tPageData })] } })
      5 3 4 tPageData) ∧
    (let H : State → Nat → Nat → Instr → Prop := fun (s : State) (src i : Nat) (c : Instr) =>
      (c = .pageFetchAnswer src i none ∨ (∃ bs : List Byte, c = .pageFetchAnswer src i (some bs) ∧ (bs.length ≠ 2 ^ 21 ∨ crc32c bs ≠ (s.page
        i).digest)) ∨ (c = .pageFetchTimeout i ∧ s.tier.fetches.any (fun x => x.1 = i && x.2 + s.f oTierCfg 63 48 ≤ s.beat) = true)) ∧ Ready s ∧
        NothingWaits s ∧ s.partner = some src ∧ s.tier.fetches.any (·.1 == i) = true
    H ({ tTier with tier := { tTier.tier with fetches := [(3, 0)], pages := [(3, { tPage .fetching with frame := some 4, got := true })] } }) 5 3
      (.pageFetchAnswer 5 3 none) ∧ H
      ({ tTier.setF oTierCfg 63 48 0 with tier := { tTier.tier with fetches := [(3, 0)], pages := [(3, { tPage .fetching with frame := some 4, got := true })] } })
      5 3 (.pageFetchTimeout 3) ∧ H
      ({ tTier with tier := { tTier.tier with fetches := [(3, 0)], pages := [(3, { tPage .fetching with frame := some 4, got := true })] } }) 5 3
      (.pageFetchAnswer 5 3 (some [1#8]))) :=
  ⟨⟨List.length_replicate .., rfl, by decide +kernel⟩,
    ⟨⟨.inl rfl, by decide +kernel⟩, ⟨.inr (.inr ⟨rfl, by decide +kernel⟩), by decide +kernel⟩, .inr (.inl ⟨_, rfl, .inl (by decide +kernel)⟩), by decide +kernel⟩⟩

theorem test_BridgeReadsEndOrAreRetried :
    (let H : State → Nat → Nat → Nat → Nat → Nat → Nat → BridgeOp → List Byte → Spare → Prop := fun (s : State) (ch opid ecc corrected p u : Nat) (o :
      BridgeOp) (data : List Byte) (spare : Spare) =>
      (∀ x ∈ s.tier.ops, x ≠ o → ∀ v, x.use ≠ .promote p v) ∧ data.length = 16384 ∧ crc32c data = spare.crc ∧ Ready s ∧ NothingWaits s ∧ s.reg
        oChFailed = 0#64 ∧ s.opOf ch opid = some o ∧ o.kind = 1 ∧ o.level = 0 ∧ o.use = .promote p u ∧ s.tier.backlog = [] ∧ (s.page p).st =
        .promoting ∧ ecc < 2
    H
      ({ tBridge (tOp 1 (.promote 3 385)) with tier := { (tBridge (tOp 1 (.promote 3 385))).tier with pages := [(3, { tPage .promoting with frame := some 4 })], waits := [⟨3, 0, 3, false, 0⟩] } })
      0 7 1 5 3 385 (tOp 1 (.promote 3 385)) tUnit ⟨385, 0, crc32c tUnit, 9#32, 0⟩) ∧
    (let H : State → Nat → Nat → Nat → Nat → BridgeOp → List Byte → Spare → Prop := fun (s : State) (ch opid ecc corrected : Nat) (o : BridgeOp) (data
      : List Byte) (spare : Spare) =>
      Ready s ∧ NothingWaits s ∧ s.b oAmberStat 1 = false ∧ s.tier.ops = [o] ∧ s.tier.backlog = [] ∧ o.ch = ch ∧ o.opid = opid ∧ o.kind = 1 ∧ 2 ≤ ecc
        ∧ o.level < s.f oFlashCfg 47 44
    H ((tBridge (tOp 1 (.promote 3 385))).setF oFlashCfg 47 44 3) 0 7 2 0 (tOp 1 (.promote 3 385)) tUnit ⟨0, 0, 0#32, 0#32, 0⟩) ∧
    (let H : State → Nat → Nat → BridgeOp → Prop := fun (s : State) (ch opid : Nat) (o : BridgeOp) =>
      Ready s ∧ NothingWaits s ∧ s.b oAmberStat 1 = false ∧ s.tier.ops = [o] ∧ s.tier.backlog = [] ∧ o.ch = ch ∧ o.opid = opid ∧ o.kind = 5 ∧ 0 <
        o.level
    H (tBridge { tOp 5 (.promote 3 385) with level := 1 }) 0 7 ({ tOp 5 (.promote 3 385) with level := 1 })) ∧
    (let H : State → Nat → Nat → BridgeOp → Prop := fun (s : State) (ch opid : Nat) (o : BridgeOp) =>
      Ready s ∧ NothingWaits s ∧ s.b oAmberStat 1 = false ∧ s.tier.ops = [o] ∧ s.tier.backlog = [] ∧ o.ch = ch ∧ o.opid = opid ∧ o.kind = 5 ∧ o.level
        = 0
    H (tBridge (tOp 5 .void)) 0 7 (tOp 5 .void)) ∧
    (let H : State → Nat → Nat → BridgeOp → Prop := fun (s : State) (ch opid : Nat) (o : BridgeOp) =>
      let limit := s.f oFlashCfg 43 32 * (if o.kind = 3 then 8 else 1)
      Ready s ∧ NothingWaits s ∧ ch < 8 ∧ s.tier.ops = [o] ∧ s.tier.backlog = [] ∧ o.ch = ch ∧ o.opid = opid ∧ o.issued + limit ≤ s.beat ∧ o.reissued
        = false
    H ((tBridge (tOp 3 (.erase 70))).setF oFlashCfg 43 32 0) 0 7 (tOp 3 (.erase 70))) ∧
    (let H : State → Nat → Nat → BridgeOp → Prop := fun (s : State) (ch opid : Nat) (o : BridgeOp) =>
      let limit := s.f oFlashCfg 43 32 * (if o.kind = 3 then 8 else 1)
      (∃ k, o.use = .erase k) ∧ Ready s ∧ NothingWaits s ∧ ch < 8 ∧ s.tier.ops = [o] ∧ s.tier.backlog = [] ∧ o.ch = ch ∧ o.opid = opid ∧ o.issued +
        limit ≤ s.beat ∧ o.reissued = true ∧ o.kind = 3 ∧ (∀ e ∈ s.tier.blocks, e.2.state ≠ 2)
    H ((tBridge { tOp 3 (.erase 70) with reissued := true }).setF oFlashCfg 43 32 0) 0 7 ({ tOp 3 (.erase 70) with reissued := true })) ∧
    (let H : State → Nat → Nat → BridgeOp → Prop := fun (s : State) (ch opid : Nat) (o : BridgeOp) =>
      let limit := s.f oFlashCfg 43 32 * (if o.kind = 3 then 8 else 1)
      Ready s ∧ NothingWaits s ∧ ch < 8 ∧ s.tier.ops = [o] ∧ s.tier.backlog = [] ∧ o.ch = ch ∧ o.opid = opid ∧ s.beat < o.issued + limit
    H ((tBridge (tOp 3 (.erase 70))).setF oFlashCfg 43 32 1) 0 7 (tOp 3 (.erase 70))) :=
  ⟨⟨fun x hx hn => absurd (List.mem_singleton.mp hx) hn, List.length_replicate .., rfl, by decide +kernel⟩,
    by decide +kernel,
    by decide +kernel,
    by decide +kernel,
    by decide +kernel,
    ⟨⟨_, rfl⟩, by decide +kernel⟩,
    by decide +kernel⟩

theorem test_BridgeProgramsAndErasesEnd :
    (let H : State → Nat → Nat → Bool → BridgeOp → Instr → Prop := fun (s : State) (ch opid : Nat) (failed : Bool) (o : BridgeOp) (c : Instr) =>
      Ready s ∧ NothingWaits s ∧ s.b oAmberStat 1 = false ∧ s.tier.ops = [o] ∧ s.tier.backlog = [] ∧ o.ch = ch ∧ o.opid = opid ∧ ((c =
        .bridgeProgramStatus ch opid failed ∧ o.kind = 2) ∨ (c = .bridgeEraseStatus ch opid failed ∧ o.kind = 3))
    H (tBridge (tOp 2 (.store 8388700))) 0 7 true (tOp 2 (.store 8388700)) (.bridgeProgramStatus 0 7 true) ∧ H (tBridge (tOp 3 (.erase 70))) 0 7
      false (tOp 3 (.erase 70)) (.bridgeEraseStatus 0 7 false)) ∧
    (let H : State → Nat → Nat → Nat → BridgeOp → Prop := fun (s : State) (ch opid u : Nat) (o : BridgeOp) =>
      Ready s ∧ NothingWaits s ∧ s.opOf ch opid = some o ∧ o.kind = 4 ∧ o.use = .store u ∧ s.tier.backlog = [] ∧ physOf o.addr ≠ 0xFFFFFFFF
    H (tBridge (tOp 4 (.store 8388700))) 0 7 8388700 (tOp 4 (.store 8388700))) ∧
    (let H : State → Nat → Nat → BridgeOp → Instr → Prop := fun (s : State) (ch opid : Nat) (o : BridgeOp) (c : Instr) =>
      ((c = .bridgeProgramStatus ch opid true ∧ o.use = .void) ∨ (c = .bridgeEraseStatus ch opid true ∧ ∃ k, o.use = .erase k)) ∧ Ready s ∧
        NothingWaits s ∧ s.opOf ch opid = some o ∧ o.kind = 4 ∧ s.tier.backlog = [] ∧ (s.block (physOf o.addr / 1024)).state ≠ 3
    H (tBridge (tOp 4 .void)) 0 7 (tOp 4 .void) (.bridgeProgramStatus 0 7 true) ∧ H (tBridge (tOp 4 (.erase 70))) 0 7 (tOp 4 (.erase 70))
      (.bridgeEraseStatus 0 7 true)) ∧
    (let H : State → Nat → Nat → Nat → BridgeOp → Prop := fun (s : State) (ch opid k : Nat) (o : BridgeOp) =>
      Ready s ∧ NothingWaits s ∧ s.opOf ch opid = some o ∧ o.kind = 4 ∧ o.use = .erase k ∧ s.tier.backlog = []
    H (tBridge (tOp 4 (.erase 70))) 0 7 70 (tOp 4 (.erase 70))) :=
  ⟨by refine ⟨?_, ?_⟩ <;> decide +kernel,
    by decide +kernel,
    ⟨⟨.inl ⟨rfl, rfl⟩, by decide +kernel⟩, ⟨.inr ⟨rfl, _, rfl⟩, by decide +kernel⟩⟩,
    by decide +kernel⟩

theorem test_EvictionAndCollectionFreeSpace :
    (let H : State → Nat → Nat → Page → Prop := fun (s : State) (i f : Nat) (g : Page) =>
      Ready s ∧ NothingWaits s ∧ s.b oAmberStat 1 = false ∧ s.tier.free.length < s.f oTierCfg 47 40 ∧ s.tier.pages.find? (fun e => e.2.demote &&
        s.evictable e.1 e.2) = some (i, g) ∧ s.page i = g ∧ g.dirty = false ∧ g.frame = some f
    H
      ({ tFlash.setF oTierCfg 47 40 1 with tier := { tFlash.tier with pages := [(3, { tPage .resident with frame := some 4, demote := true })], units := [(385, 5)], free := [] } })
      3 4 ({ tPage .resident with frame := some 4, demote := true })) ∧
    (let H : State → Prop := fun (s : State) =>
      Ready s ∧ NothingWaits s ∧ s.f oTierCfg 47 40 ≤ s.tier.free.length
    H (tFlash.setF oTierCfg 47 40 1)) ∧
    (let H : State → Nat → Nat → Block → Prop := fun (s : State) (lun k : Nat) (b : Block) =>
      Ready s ∧ NothingWaits s ∧ s.b oAmberStat 1 = false ∧ s.lunOrder.contains lun = true ∧ s.freeBlocks lun < 16 ∧ (s.lunUsed lun).filter
        (·.2.state == 2) = [(k, b)] ∧ s.block k = b ∧ s.validIn k = [] ∧ s.tier.ops = [] ∧ s.tier.backlog = [] ∧ s.chFailed (k / 2 ^ 19) = false
    H ({ tFlash with tier := { tFlash.tier with blocks := (List.range 21).map (fun k => (k + 64, ⟨1, 0, if k = 0 then 2 else 3, 0, 0⟩)) } }) 0 64 ⟨1,
      0, 2, 0, 0⟩) ∧
    (let H : State → Nat → Nat → Block → Prop := fun (s : State) (k d : Nat) (b : Block) =>
      Ready s ∧ NothingWaits s ∧ s.f oFlashWear 31 0 + s.f oFlashCfg 7 0 * 16 < s.f oFlashWear 63 32 ∧ s.tier.blocks.filter (·.2.state == 2) = [(k,
        b)] ∧ s.block k = b ∧ s.validIn k = [] ∧ s.pickBlock (k / 2 ^ 16) true = some d ∧ d ≠ k
    H ({ ((tFlash.setF oFlashWear 63 32 100).setF oFlashCfg 7 0 1) with tier := { tFlash.tier with blocks := [(70, ⟨1, 0, 2, 0, 0⟩)] } }) 70 64 ⟨1,
      0, 2, 0, 0⟩) :=
  ⟨by decide +kernel,
    by decide +kernel,
    by decide +kernel,
    by decide +kernel⟩

theorem test_RefreshPatrolAndCheckpoint :
    (let H : State → Nat → Nat → Nat → List Nat → Prop := fun (s : State) (k u p : Nat) (rest : List Nat) =>
      Ready s ∧ NothingWaits s ∧ s.b oAmberStat 1 = false ∧ s.tier.refreshQ = k :: rest ∧ s.validIn k = [(u, p)] ∧ s.chFailed (p / 2 ^ 29) = false ∧
        s.tier.ops = [] ∧ s.tier.backlog = []
    H ({ tFlash with tier := { tFlash.tier with refreshQ := [70], units := [(5, 70 * 1024)] } }) 70 5 71680 []) ∧
    (let H : State → Nat → Nat → Prop := fun (s : State) (u p : Nat) =>
      Ready s ∧ NothingWaits s ∧ s.b oAmberStat 1 = false ∧ s.tier.patrolAt ≤ s.beat ∧ s.tier.units = [(u, p)] ∧ p < 2 ^ 32 - 1 ∧ (s.block (p /
        1024)).next ≤ 1024 ∧ s.tier.ops = [] ∧ s.tier.backlog = [] ∧ s.chFailed (p / 2 ^ 29) = false
    H ({ tFlash.setF oBeatNow 47 0 (2 ^ 26) with tier := { tFlash.tier with units := [(5, 70 * 1024)], blocks := [(70, ⟨1, 0, 1, 1, 0⟩)] } }) 5 71680) ∧
    (let H : State → Prop := fun (s : State) =>
      Ready s ∧ NothingWaits s ∧ s.beat < s.tier.patrolAt
    H tFlash) ∧
    (let H : State → Prop := fun (s : State) =>
      Ready s ∧ s.tier.ckptDue = 0
    H tFlash) ∧
    (let H : State → Prop := fun (s : State) =>
      Ready s ∧ s.tier.ckptDue ≠ 0
    H ({ tFlash with tier := { tFlash.tier with ckptDue := 2, units := [(385, 71680)] } }) ∧ H
      ({ tReady with tier := { tReady.tier with ckptDue := 1 } })) :=
  ⟨by decide +kernel,
    by decide +kernel,
    by decide +kernel,
    by decide +kernel,
    by refine ⟨?_, ?_⟩ <;> decide +kernel⟩

theorem test_LanesFailAndAreSpared :
    (let H : State → Nat → Nat → Nat → Nat → InFlight → Prop := fun (s : State) (p kind cell i : Nat) (fl : InFlight) =>
      Ready s ∧ p < 264 ∧ s.lanesOut.contains p = false ∧ placeOf s.fab.laneMap p = some i ∧ i < 256 ∧ kind ∈ [1, 3, 4, 5] ∧ cell < 256 ∧ countRule
        (s.reg oFabCfg) (errCount (s.marks s.fab.laneErrs p (s.f oFabCfg 15 0)) p) = false
    H (tReady.setF oFabCfg 31 24 2) 255 1 79 255 ⟨0, 0, 0, 0⟩ ∧ H ({ tReady.setF oFabCfg 31 24 200 with jobs := [tJob 0, tJob 1] }) 0 5 0 0 ⟨0, 0, 0,
      1⟩) ∧
    (let H : State → Nat → Nat → Nat → Nat → Nat → InFlight → Prop := fun (s : State) (p kind cell i r : Nat) (fl : InFlight) =>
      Ready s ∧ p < 264 ∧ s.lanesOut.contains p = false ∧ placeOf s.fab.laneMap p = some i ∧ (kind = 2 ∨ kind = 6) ∧ (pool 264 s.fab.laneMap
        s.lanesOut).head? = some r
    H tReady 255 2 79 255 256 ⟨0, 0, 0, 0⟩ ∧ H tReady 0 6 79 0 256 ⟨0, 0, 0, 0⟩) ∧
    (let H : State → Prop := fun (s : State) =>
      Ready s
    H ({ tReady with fab := { tReady.fab with laneLoad := true } })) :=
  ⟨by refine ⟨?_, ?_⟩ <;> decide +kernel,
    by refine ⟨?_, ?_⟩ <;> decide +kernel,
    by decide +kernel⟩

theorem test_RowsBanksAndVariantsComeBack :
    (let H : State → Nat → Nat → Nat → Prop := fun (s : State) (p kind i : Nat) =>
      Ready s ∧ p < 132 ∧ s.rowsOut.contains p = false ∧ placeOf s.fab.rowMap p = some i ∧ i < 256 ∧ kind = 1 ∧ countRule (s.reg oMxCfg) (errCount
        (s.marks s.fab.rowErrs p (s.f oMxCfg 15 0)) p) = false
    H (tReady.setF oMxCfg 31 24 200) 127 1 127) ∧
    (let H : State → Nat → Nat → Nat → Nat → Prop := fun (s : State) (p kind i : Nat) (r : Nat) =>
      Ready s ∧ p < 132 ∧ s.rowsOut.contains p = false ∧ placeOf s.fab.rowMap p = some i ∧ i < 256 ∧ 2 ≤ kind ∧ kind ≤ 4 ∧ (pool 132 s.fab.rowMap
        s.rowsOut).head? = some r
    H tReady 127 2 127 128 ∧ H tReady 0 4 0 128) ∧
    (let H : State → SramAddr → Queue → Run → Prop := fun (s : State) (a : SramAddr) (q : Queue) (r : Run) =>
      Ready s ∧ s.queues.length = 4 ∧ s.res.sram.contains (some a.bank) = true ∧ s.run q = some r
    H (tSlateAt tSlate) ⟨63, 5⟩ .sq tSlate) ∧
    (let H : State → Nat → Prop := fun (s : State) (p : Nat) =>
      Ready s ∧ s.res.sram.contains (some p) = true ∧ countRule (s.reg oSramCfg) (errCount (s.marks s.res.sramErrs p (s.f oSramCfg 15 0)) p) = false
    H (tReady.setF oSramCfg 31 24 2) 63 ∧ H (tReady.setB oSramCfg 16 true) 0) ∧
    (let H : State → Nat → Prop := fun (s : State) (p : Nat) =>
      Ready s ∧ s.res.sram.contains (some p) = false
    H tReady 64) ∧
    (let H : State → SramAddr → SramEvent → Nat → Nat → Prop := fun (s : State) (a : SramAddr) (e : SramEvent) (i r : Nat) =>
      Ready s ∧ a.bank < 66 ∧ s.res.sramOut.contains a.bank = false ∧ s.bankPool.head? = some r ∧ s.res.sram.length = 64 ∧ (List.range 64).find? (fun
        i => s.res.sram[i]? == some (some a.bank)) = some i ∧ ((e = .failedAgain a ∧ s.res.refilled.contains a = true) ∨ (e = .corrected a.bank ∧
        countRule (s.reg oSramCfg) (errCount (s.marks s.res.sramErrs a.bank (s.f oSramCfg 15 0)) a.bank) = true))
    H ({ tReady with res := { tReady.res with refilled := [⟨63, 5⟩] } }) ⟨63, 5⟩ (.failedAgain ⟨63, 5⟩) 63 64 ∧ H (tReady.setF oSramCfg 31 24 1) ⟨0,
      0⟩ (.corrected 0) 0 64) ∧
    (let H : State → SramAddr → Prop := fun (s : State) (a : SramAddr) =>
      Ready s ∧ s.res.refilled.contains a = false
    H ({ tReady with res := { tReady.res with refilled := [⟨63, 5⟩] } }) ⟨63, 6⟩) ∧
    (let H : State → Prop := fun (s : State) =>
      Ready s
    H ({ tReady with res := { tReady.res with sramCopy := [3, 4] } })) ∧
    (let H : State → Nat → Prop := fun (s : State) (v : Nat) =>
      Ready s ∧ s.fab.loading.contains v = true ∧ s.draining v = false
    H ({ tReady with fab := { tReady.fab with loading := [3] } }) 3 ∧ H ({ tReady with fab := { tReady.fab with loading := [0, 3] } }) 3) ∧
    (let H : State → Nat → Prop := fun (s : State) (v : Nat) =>
      Ready s ∧ s.fab.loading.contains v = true ∧ s.draining v = true
    H ({ tRunning tReady .uq (tRun 1 0x30) with fab := { tReady.fab with loading := [0] }, jobs := [{ tJob 0 with q := .uq }] }) 0) :=
  ⟨by decide +kernel,
    by refine ⟨?_, ?_⟩ <;> decide +kernel,
    by decide +kernel,
    by refine ⟨?_, ?_⟩ <;> decide +kernel,
    by decide +kernel,
    by refine ⟨?_, ?_⟩ <;> decide +kernel,
    by decide +kernel,
    by decide +kernel,
    by refine ⟨?_, ?_⟩ <;> decide +kernel,
    by decide +kernel⟩

theorem test_OnlyAResetEndsTheHalt :
    (let H : State → Prop := fun (s : State) =>
      s.wf = true ∧ s.pin.phase ≠ 0 ∧ s.pin.halted = false
    H tReady ∧ H (tReady.setB oFaultRecord 63 true)) ∧
    (let H : Instr → State → State → Prop := fun (c : Instr) (s t : State) =>
      s.pin.halted = true
    H .sequencerHalt ({ tReady with pin := { tReady.pin with halted := true } }) tReady) ∧
    (let H : Instr → State → State → Prop := fun (c : Instr) (s t : State) =>
      engineWork c = true ∧ s.pin.halted = true
    H .gather ({ tReady with pin := { tReady.pin with halted := true } }) tReady) ∧
    (let H : State → Prop := fun (s : State) =>
      s.wf = true ∧ s.pin.phase ≠ 0 ∧ s.pin.halted = false
    H tReady) :=
  ⟨by refine ⟨?_, ?_⟩ <;> decide +kernel,
    by decide +kernel,
    by decide +kernel,
    by decide +kernel⟩

theorem test_AHaltedBlockServesItsPorts :
    (let H : State → Nat → Word → Prop := fun (s : State) (o : Nat) (w : Word) =>
      Open s ∧ s.pin.phase = 6 ∧ s.pin.halted = true ∧ o < 2 ^ 20 ∧ o % 8 = 0 ∧ plainRegister o = true
    H ({ tReady with pin := { tReady.pin with halted := true } }) (oStrmPf 0) (0xFFFFFFFFFFFFFFFF#64)) ∧
    (let H : State → Nat → Word → Prop := fun (s : State) (o : Nat) (w : Word) =>
      Open s ∧ s.pin.phase = 6 ∧ s.pin.halted = true ∧ o < 2 ^ 20 ∧ o % 8 = 0 ∧ isStaged o = true ∧ s.stageState ≠ 4
    H ({ tReady with pin := { tReady.pin with halted := true } }) oBeatCfg (5#64)) ∧
    (let H : State → Word → Instr → Prop := fun (s : State) (w : Word) (c : Instr) =>
      Open s ∧ s.pin.phase = 6 ∧ s.pin.halted = true ∧ bit w 2 = false ∧ (c = .check w ∨ c = .apply w ∨ c = .load w)
    H ({ tReady with pin := { tReady.pin with halted := true } }) (0xC1#64) (.check 0xC1#64) ∧ H
      ({ tReady with pin := { tReady.pin with halted := true } }) (0xC2#64) (.apply 0xC2#64) ∧ H
      ({ tReady with pin := { tReady.pin with halted := true } }) (0x8#64) (.load 0x8#64)) ∧
    (let H : State → Word → Prop := fun (s : State) (w : Word) =>
      Open s ∧ s.pin.phase = 6 ∧ s.pin.halted = true
    H ({ tReady with pin := { tReady.pin with halted := true } }) (0x8000000000000001#64)) ∧
    (let H : State → Queue → Word → Prop := fun (s : State) (q : Queue) (w : Word) =>
      Open s ∧ s.pin.phase = 6 ∧ s.pin.halted = true
    H ({ tReady with pin := { tReady.pin with halted := true } }) .gq (1#64)) ∧
    (let H : State → RegPort → Word → Prop := fun (s : State) (port : RegPort) (w : Word) =>
      Open s ∧ s.pin.phase = 6 ∧ s.pin.halted = true ∧ s.b oSvImgStat 0 = false ∧ s.pin.image.length < 2 ^ 17
    H ({ tReady with pin := { tReady.pin with halted := true } }) .svp (1#64)) ∧
    (let H : State → RegPort → Word → Prop := fun (s : State) (port : RegPort) (w : Word) =>
      Open s ∧ s.pin.phase = 6 ∧ s.pin.halted = true ∧ s.b oSvImgStat 0 = false ∧ bit w 2 = true ∧ bit w 1 = false ∧ bit w 0 = false
    H ({ tReady with pin := { tReady.pin with halted := true } }) .svp (4#64)) ∧
    (let H : State → RegPort → Word → Image → Prop := fun (s : State) (port : RegPort) (w : Word) (x : Image) =>
      Open s ∧ s.pin.phase = 6 ∧ s.pin.halted = true ∧ s.b oSvImgStat 0 = false ∧ bit w 2 = false ∧ bit w 1 = true ∧ bit w 0 = false ∧ fld w 63 56 =
        0xA5 ∧ checkImage s.imageBytes s.me = .inr x
    H ({ tBuffer (wordsFrom tImage 0 8) with pin := { (tBuffer (wordsFrom tImage 0 8)).pin with halted := true } }) .hcp (0xA500000000000002#64) ⟨[],
      7#64, none, true⟩) ∧
    (let H : State → RegPort → Word → Prop := fun (s : State) (port : RegPort) (w : Word) =>
      Open s ∧ s.pin.phase = 6 ∧ s.pin.halted = true ∧ s.b oSvImgStat 0 = false ∧ bit w 2 = false ∧ bit w 1 = false ∧ bit w 0 = true ∧ fld w 63 56 =
        0xA5
    H ({ tReady with pin := { tReady.pin with halted := true } }) .svp (0xA500000000000001#64)) ∧
    (let H : State → RegPort → Prop := fun (s : State) (port : RegPort) =>
      Open s ∧ s.pin.phase = 6 ∧ s.pin.halted = true
    H ({ tReady with pin := { tReady.pin with halted := true } }) .svp) :=
  ⟨by decide +kernel,
    by decide +kernel,
    by refine ⟨?_, ?_, ?_⟩ <;> decide +kernel,
    by decide +kernel,
    by decide +kernel,
    by decide +kernel,
    by decide +kernel,
    by decide +kernel,
    by decide +kernel,
    by decide +kernel⟩

theorem test_SupplyAndTemperatureStopIssue :
    (let H : State → Prop := fun (s : State) =>
      s.wf = true ∧ 2 ≤ s.pin.phase ∧ s.pin.halted = false ∧ s.calm = true ∧ s.res.amberPh = 0
    H tReady ∧ H ({ tSlateAt tSlate with pin := { tReady.pin with phase := 2 } })) ∧
    (let H : State → Prop := fun (s : State) =>
      s.wf = true ∧ s.pin.phase < 2
    H ({ tReady with pin := { tReady.pin with phase := 1 } })) ∧
    (let H : State → Prop := fun (s : State) =>
      s.wf = true ∧ 2 ≤ s.pin.phase ∧ s.pin.halted = false ∧ s.calm = true ∧ s.res.amberPh = 1
    H ({ tReady with res := { tReady.res with amberPh := 1 } })) ∧
    (let H : State → Prop := fun (s : State) =>
      Ready s ∧ s.res.amberPh = 2
    H ({ tReady with res := { tReady.res with amberPh := 2 } })) ∧
    (let H : State → Prop := fun (s : State) =>
      s.wf = true ∧ 2 ≤ s.pin.phase ∧ s.pin.phase < 6 ∧ s.pin.halted = false ∧ s.calm = true ∧ s.res.amberPh = 2
    H ({ tReady with res := { tReady.res with amberPh := 2 }, pin := { tReady.pin with phase := 5 } })) ∧
    (let H : State → Prop := fun (s : State) =>
      Ready s ∧ LinesGood s ∧ s.res.amberPh = 3
    H
      ({ tReady.setB oAmberStat 1 true with res := { tReady.res with amberPh := 3, amberLog := [.tile tSlate (tJob 0) [0#32], .word7 9 0#32, .table 0x40000000 4 0#32] } })) ∧
    (let H : State → Nat → Prop := fun (s : State) (c : Nat) =>
      Open s ∧ c < 1024
    H tReady 1023 ∧ H (tReady.setF oPwrCfg 57 48 600) 599 ∧ H (tReady.setF oPwrCfg 57 48 600) 600) ∧
    (let H : State → Nat → Prop := fun (s : State) (c : Nat) =>
      Open s ∧ 1024 ≤ c
    H tReady 1024) ∧
    (let H : State → Prop := fun (s : State) =>
      Open s
    H ({ tReady.setB oPwrStat 4 true with pin := { tReady.pin with temp := some 5, hotStop := true } })) :=
  ⟨by refine ⟨?_, ?_⟩ <;> decide +kernel,
    by decide +kernel,
    by decide +kernel,
    by decide +kernel,
    by decide +kernel,
    by decide +kernel,
    by refine ⟨?_, ?_, ?_⟩ <;> decide +kernel,
    by decide +kernel,
    by decide +kernel⟩

theorem test_ResetsStartTheSequence :
    (let H : State → Instr → Prop := fun (s : State) (c : Instr) =>
      s.wf = true ∧ (c = .rstNAssert ∨ c = .supplyGoodFall)
    H (tSlateAt tSlate) .rstNAssert ∧ H ({ tSlateAt tSlate with res := { tReady.res with halves := [some (tSnap true), some (tSnap false)] } })
      .supplyGoodFall) ∧
    (let H : State → Straps → Prop := fun (s : State) (st : Straps) =>
      s.wf = true ∧ s.pin.phase = 0 ∧ s.pin.warn = false ∧ s.pin.cause < 4
    H State.reset ⟨255, 15, 3⟩ ∧ H ({ State.reset with pin := { State.reset.pin with cause := 3 } }) ⟨0, 0, 0⟩) ∧
    (let H : State → Straps → Prop := fun (s : State) (st : Straps) =>
      s.pin.phase ≠ 0 ∧ s.wf = true
    H tReady ⟨255, 15, 3⟩) ∧
    (let H : State → RegPort → Word → Prop := fun (s : State) (port : RegPort) (w : Word) =>
      Open s ∧ s.serviceShut port = false ∧ s.b oSvImgStat 0 = false ∧ bit w 2 = false ∧ bit w 1 = false ∧ bit w 0 = true ∧ fld w 63 56 = 0xA5
    H ({ tSlateAt tSlate with res := { tReady.res with halves := [some (tSnap true), some (tSnap false)] } }) .svp (0xA500000000000001#64)) ∧
    (let H : State → RegPort → Word → Prop := fun (s : State) (port : RegPort) (w : Word) =>
      Open s ∧ s.serviceShut port = false ∧ s.b oSvImgStat 0 = true ∧ bit w 2 = false ∧ bit w 1 = false ∧ bit w 0 = true ∧ fld w 63 56 = 0xA5
    H (tReady.setB oSvImgStat 0 true) .svp (0xA500000000000001#64)) :=
  ⟨by refine ⟨?_, ?_⟩ <;> decide +kernel,
    by refine ⟨?_, ?_⟩ <;> decide +kernel,
    by decide +kernel,
    by decide +kernel,
    by decide +kernel⟩

theorem test_TheResetSequenceEndsReady :
    (let H : State → ImageReads → List Byte → Image → Prop := fun (s : State) (flash : ImageReads) (bs : List Byte) (m : Image) =>
      s.wf = true ∧ s.pin.phase = 2 ∧ s.pin.halted = false ∧ s.pin.straps.imageSrc = 0 ∧ (s.imgLuns flash 8 0).2 = some bs ∧ checkImage bs s.me =
        .inr m
    H ({ tReady with pin := { tReady.pin with phase := 2, straps := ⟨0, 0, 0⟩ } }) [[[tImage]]] tImage ⟨[], 7#64, none, true⟩ ∧ H
      ({ tReady with pin := { tReady.pin with phase := 2, straps := ⟨0, 0, 0⟩ } }) [[], [[[], tImage]]] tImage ⟨[], 7#64, none, true⟩) ∧
    (let H : State → ImageReads → Nat → Nat → Prop := fun (s : State) (flash : ImageReads) (code : Nat) (at_ : Nat) =>
      ((∃ bs, (s.imgLuns flash 8 0).2 = some bs ∧ checkImage bs s.me = .inl (code, at_)) ∨ ((s.imgLuns flash 8 0).2 = none ∧ code = 6 ∧ at_ = 255)) ∧
        s.wf = true ∧ s.pin.phase = 2 ∧ s.pin.halted = false ∧ s.pin.straps.imageSrc = 0 ∧ code < 16 ∧ at_ < 256
    H ({ tReady with pin := { tReady.pin with phase := 2, straps := ⟨0, 0, 0⟩ } }) [[[[0#8]]]] 2 255 ∧ H
      ({ tReady with pin := { tReady.pin with phase := 2, straps := ⟨0, 0, 0⟩ } }) [] 6 255) ∧
    (let H : State → ImageReads → Prop := fun (s : State) (x : ImageReads) =>
      s.wf = true ∧ s.pin.phase = 2 ∧ s.pin.halted = false ∧ s.pin.straps.imageSrc = 3
    H ({ tReady with pin := { tReady.pin with phase := 2, straps := ⟨0, 0, 3⟩ } }) []) ∧
    (let H : State → ImageReads → Prop := fun (s : State) (x : ImageReads) =>
      s.wf = true ∧ s.pin.phase = 2 ∧ s.pin.halted = false ∧ (s.pin.straps.imageSrc = 1 ∨ s.pin.straps.imageSrc = 2)
    H ({ tReady with pin := { tReady.pin with phase := 2, straps := ⟨0, 0, 1⟩ } }) [] ∧ H
      ({ tReady with pin := { tReady.pin with phase := 2, straps := ⟨0, 0, 2⟩ } }) [[]]) ∧
    (let H : State → Prop := fun (s : State) =>
      s.wf = true ∧ s.pin.phase = 3 ∧ s.bootHeld = false
    H ({ tReady with pin := { tReady.pin with phase := 3, straps := ⟨0, 0, 0⟩ } }) ∧ H
      ({ tFlash.store 0x3A000005 [3#8] with pin := { tReady.pin with phase := 3 }, badLines := [4] })) ∧
    (let H : State → Rebuild → Prop := fun (s : State) (r : Rebuild) =>
      s.wf = true ∧ s.pin.phase = 4 ∧ s.bootHeld = false ∧ s.channels ≠ 0 ∧ s.b oTierStat 2 = false ∧ r.commits = []
    H ({ tFlash with pin := { tReady.pin with phase := 4 } }) ⟨[], [], [], 0, [], 0, [70], []⟩ ∧ H
      ({ tFlash with pin := { tReady.pin with phase := 4 } }) ⟨[], [], [], 0, [], 0, [], [3]⟩) ∧
    (let H : State → Rebuild → Nat → Nat → Nat → Nat → FlashAddr → BitVec 32 → Prop := fun (s : State) (r : Rebuild) (n : Nat) (sect : Nat) (slot :
      Nat) (u : Nat) (a : FlashAddr) (d : BitVec 32) =>
      s.wf = true ∧ s.pin.phase = 4 ∧ s.bootHeld = false ∧ s.channels ≠ 0 ∧ s.b oTierStat 2 = false ∧ r.commits = [n] ∧ r.slots = [⟨sect, slot, n,
        true, [(u, a, d)], []⟩] ∧ r.pages = [] ∧ physOf a ≠ 0xFFFFFFFF
    H ({ tFlash with pin := { tReady.pin with phase := 4 } }) ⟨[⟨3, 1, 9, true, [(385, ⟨0, 0, 0, 70, 0⟩, 9#32)], []⟩], [9], [], 5, [1,2,3,4,5,6,7,8],
      1, [], []⟩ 9 3 1 385 ⟨0, 0, 0, 70, 0⟩ (9#32) ∧ H ({ tFlash with pin := { tReady.pin with phase := 4 } }) ⟨[⟨3, 1, 9, true, [(1048576, ⟨0, 0, 0,
      70, 0⟩, 9#32)], []⟩], [9], [], 5, [1,2,3,4,5,6,7,8], 1, [], []⟩ 9 3 1 1048576 ⟨0, 0, 0, 70, 0⟩ (9#32)) ∧
    (let H : State → Rebuild → Nat → FlashAddr → Spare → Prop := fun (s : State) (r : Rebuild) (n : Nat) (a : FlashAddr) (sp : Spare) =>
      s.wf = true ∧ s.pin.phase = 4 ∧ s.bootHeld = false ∧ s.channels ≠ 0 ∧ s.b oTierStat 2 = false ∧ r.commits = [n] ∧ r.slots = [] ∧ r.pages = [(a,
        sp)] ∧ sp.kind < 2 ∧ physOf a ≠ 0xFFFFFFFF ∧ (s.block (physOf a / 1024)).state = 0
    H ({ tFlash with pin := { tReady.pin with phase := 4 } }) ⟨[], [9], [(⟨0, 0, 0, 70, 5⟩, ⟨385, 7, 0#32, 9#32, 0⟩)], 5, [1,2,3,4,5,6,7,8], 1, [],
      []⟩ 9 ⟨0, 0, 0, 70, 5⟩ ⟨385, 7, 0#32, 9#32, 0⟩) ∧
    (let H : State → Prop := fun (s : State) =>
      s.wf = true ∧ s.pin.phase = 5 ∧ s.pin.halted = false
    H ({ tReady with pin := { tReady.pin with phase := 5, straps := ⟨0, 0, 0⟩ } })) :=
  ⟨by refine ⟨?_, ?_⟩ <;> decide +kernel,
    ⟨⟨.inl (opt_some (by decide +kernel)), by decide +kernel⟩, ⟨.inr (by decide +kernel), by decide +kernel⟩⟩,
    by decide +kernel,
    by refine ⟨?_, ?_⟩ <;> decide +kernel,
    by refine ⟨?_, ?_⟩ <;> decide +kernel,
    by refine ⟨?_, ?_⟩ <;> decide +kernel,
    by refine ⟨?_, ?_⟩ <;> decide +kernel,
    by decide +kernel,
    by decide +kernel⟩

theorem test_BadRecordsEndAborted :
    let H : State → Queue → Instr → Nat → Prop := fun (s : State) (q : Queue) (c : Instr) (reason : Nat) =>
      let bs := s.record q (s.nextSeq q)
      Ready s ∧ LinesGood s ∧ NothingWaits s ∧ s.queues.length = 4 ∧ queueRow q c = true ∧ s.run q = none ∧ s.waiting q = true ∧ s.posted q =
        s.nextSeq q ∧ ((reason = 1 ∧ leAt bs 4 4 ≠ s.nextSeq q) ∨ (reason = 2 ∧ leAt bs 4 4 = s.nextSeq q ∧ opcOk q (leAt bs 0 1) = false) ∨ (reason
        = 3 ∧ leAt bs 4 4 = s.nextSeq q ∧ opcOk q (leAt bs 0 1) = true ∧ reservedSet s.fab.resident (leAt bs 0 1) bs = true))
    H (tHead tReady .gq 0x10 [(4, 5)]) .gq .gather 1 ∧ H (tHead tReady .sq 0x10 []) .sq .fence 2 ∧ H (tHead tReady .uq 0x33 [(1, 1)]) .uq .update 3 ∧
      H (tHead tReady .aq 0x22 [(20, 2)]) .aq (.barrier .aq) 3 := by refine ⟨?_, ?_, ?_, ?_⟩ <;> decide +kernel

theorem test_SweepsAreTakenUp :
    (let H : State → Instr → Nat → Prop := fun (s : State) (c : Instr) (opc : Nat) =>
      Ready s ∧ LinesGood s ∧ Fresh s .uq opc ∧ ((c = .update ∧ opc = 0x30) ∨ (c = .updateSparse ∧ opc = 0x31) ∨ (c = .commit ∧ opc = 0x33) ∨ (c =
        .discard ∧ opc = 0x34)) ∧ (s.newest .uq).fld 8 4 ≠ (s.stepNow + 1) % 2 ^ 32
    H (tHead tRes .uq 0x30 [(8, 2)]) .update 0x30 ∧ H (tHead tRes .uq 0x31 [(8, 0)]) .updateSparse 0x31 ∧ H (tHead tRes .uq 0x33 [(8, 2)]) .commit
      0x33 ∧ H (tHead tRes .uq 0x34 [(8, 2)]) .discard 0x34) ∧
    (let H : State → State → Prop := fun (s u : State) =>
      let r := s.newest .uq
      let ds := (List.range (r.fld 14 2 + 1 - r.fld 12 2)).map (r.fld 12 2 + ·)
      Ready s ∧ LinesGood s ∧ Fresh s .uq 0x30 ∧ r.fld 8 4 = (s.stepNow + 1) % 2 ^ 32 ∧ ds.any s.step.written.contains = false ∧ (s.taken
        .uq).firstBad ds = none ∧ (s.taken .uq).sweepBuffers r ds = some u ∧ s.pagesOf [(r.fld 16 6, 128)] = []
    H (tHead tRes .uq 0x30 [(8, 1), (12, 9), (14, 9), (16, 0xF0000080)]) ((tHead tRes .uq 0x30 [(8, 1), (12, 9), (14, 9), (16, 0xF0000080)]).taken
      .uq)) ∧
    (let H : State → State → Prop := fun (s u : State) =>
      let r := s.newest .uq
      Ready s ∧ LinesGood s ∧ Fresh s .uq 0x31 ∧ r.fld 8 4 = (s.stepNow + 1) % 2 ^ 32 ∧ s.step.written.contains (r.fld 12 2) = false ∧ (s.taken
        .uq).descCheck (r.fld 12 2) = 0 ∧ (s.desc (r.fld 12 2)).order = false ∧ (s.desc (r.fld 12 2)).stamped = true ∧ pitchOk (s.desc (r.fld 12
        2)).pitch = true ∧ r.fld 28 4 ≤ 16777216 ∧ (s.taken .uq).sweepBuffers r [r.fld 12 2] ≠ none ∧ ((s.taken .uq).passRing (svc 104) (cdiv (r.fld
        28 4) 262144)).sweepBuffers r [r.fld 12 2] = some u ∧ s.pagesOf [(r.fld 16 6, 128)] = [] ∧ s.pagesOf [(r.fld 32 6, 8 * r.fld 28 4)] = []
    H ((tHead tRes .uq 0x31 [(8, 1), (12, 9), (16, 0xF0000080), (28, 3), (32, 0xF0001000)]).store 0xF0001000 (leBytes 8 0 ++ leBytes 8 0 ++ leBytes 8
      0x500000000)) ((((tHead tRes .uq 0x31 [(8, 1), (12, 9), (16, 0xF0000080), (28, 3), (32, 0xF0001000)]).store 0xF0001000 (leBytes 8 0 ++ leBytes
      8 0 ++ leBytes 8 0x500000000)).taken .uq).passRing (svc 104) 1)) ∧
    (let H : State → Run → Instr → Prop := fun (s : State) (r : Run) (c : Instr) =>
      Ready s ∧ s.run .uq = some r ∧ s.stepClosed r.step = false ∧ ((c = .update ∧ r.opc = 0x30) ∨ (c = .updateSparse ∧ r.opc = 0x31))
    H (tRunning tRes .uq { tRun 1 0x30 with step := 1 }) ({ tRun 1 0x30 with step := 1 }) .update ∧ H (tRunning tRes .uq
      { tRun 1 0x31 with step := 1 }) ({ tRun 1 0x31 with step := 1 }) .updateSparse) ∧
    (let H : State → Prop := fun (s : State) =>
      let r := s.newest .uq
      Ready s ∧ LinesGood s ∧ Fresh s .uq 0x32 ∧ s.fab.mxHeld = none ∧ s.fab.resident.prog? (r.fld 12 1) = none
    H (tHead tRes .uq 0x32 [(12, 1), (14, 9), (16, 9), (20, 4096), (24, 0xF0000080)])) ∧
    (let H : State → MxProg → Prop := fun (s : State) (m : MxProg) =>
      let r := s.newest .uq
      Ready s ∧ LinesGood s ∧ Fresh s .uq 0x32 ∧ s.fab.mxHeld = none ∧ s.fab.resident.prog? (r.fld 12 1) = some m ∧ s.f oMxStat 23 12 ≠ 0 ∧ r.fld 8 4
        ≠ (if m.kind = 5 then 0 else (s.stepNow + 1) % 2 ^ 32)
    H (tHead { tRes with fab := { tRes.fab with resident := { tTvd with programs := [⟨0, 1, 1, 1, 0#64, 0#64, 0#64⟩] } } } .uq 0x32 [(8, 2), (14, 9),
      (16, 9), (20, 4096), (24, 0xF0000080)]) ⟨0, 1, 1, 1, 0#64, 0#64, 0#64⟩) ∧
    (let H : State → MxProg → Nat → State → Prop := fun (s : State) (m : MxProg) (d : Nat) (u : State) =>
      let r := s.newest .uq
      Ready s ∧ LinesGood s ∧ Fresh s .uq 0x32 ∧ s.fab.mxHeld = none ∧ s.fab.resident.prog? (r.fld 12 1) = some m ∧ s.f oMxStat 23 12 ≠ 0 ∧ r.fld 8 4
        = (if m.kind = 5 then 0 else (s.stepNow + 1) % 2 ^ 32) ∧ (s.taken .uq).mxLayout r m = (d, 0) ∧ (s.taken .uq).reserve m.program r.seq true (if
        m.kind = 5 || (s.fab.resident.mxOutRole m.program).isSome then [] else r.homes.map (fun h => (mxOutKey m r h, packedBytes m.outFmt (s.desc
        (mxOutKey m r h)).positions))) = some u ∧ s.pagesOf [(r.fld 24 6, 128)] = []
    H (tHead tRes .uq 0x32 [(14, 9), (16, 9), (20, 4096), (24, 0xF0000080)]) ⟨0, 5, 1, 1, 0#64, 0#64, 0#64⟩ 0 ((tHead tRes .uq 0x32 [(14, 9), (16,
      9), (20, 4096), (24, 0xF0000080)]).taken .uq)) :=
  ⟨by refine ⟨?_, ?_, ?_, ?_⟩ <;> decide +kernel,
    by decide +kernel,
    by decide +kernel,
    by refine ⟨?_, ?_⟩ <;> decide +kernel,
    by decide +kernel,
    by decide +kernel,
    by decide +kernel⟩

theorem test_SweepsComplete :
    (let H : State → Run → Instr → Prop := fun (s : State) (r : Run) (c : Instr) =>
      Ready s ∧ LinesGood s ∧ Spent s .uq r ∧ s.stepClosed r.step = true ∧ ((s.kappa r.step).isSome = true ∨ r.fld 24 1 % 2 = 1) ∧ (c = .update ∧
        r.opc = 0x30)
    H (tRunning ({ tReady with grad := { tReady.grad with openStep := 2, norm := { tReady.grad.norm with kappas := [(0, kxZero)] } } }) .uq
      ({ tRun 1 0x30 with issued := true, t := { Tally.zero with tiles := 5, replayed := 2, held := 1, descs := 3, drops := 70000, extra := 4, extra2 := 6 } }))
      ({ tRun 1 0x30 with issued := true, t := { Tally.zero with tiles := 5, replayed := 2, held := 1, descs := 3, drops := 70000, extra := 4, extra2 := 6 } })
      .update) ∧
    (let H : State → Run → Instr → Prop := fun (s : State) (r : Run) (c : Instr) =>
      Ready s ∧ LinesGood s ∧ Spent s .uq r ∧ s.stepClosed r.step = true ∧ ((s.kappa r.step).isSome = true ∨ r.fld 24 1 % 2 = 1) ∧ (c = .updateSparse
        ∧ r.opc = 0x31)
    H (tRunning ({ tReady with grad := { tReady.grad with openStep := 2, norm := { tReady.grad.norm with kappas := [(0, kxZero)] } } }) .uq
      ({ tRun 1 0x31 with issued := true, t := { Tally.zero with tiles := 5, replayed := 2, held := 1, descs := 3, drops := 70000, extra := 4, extra2 := 6 } }))
      ({ tRun 1 0x31 with issued := true, t := { Tally.zero with tiles := 5, replayed := 2, held := 1, descs := 3, drops := 70000, extra := 4, extra2 := 6 } })
      .updateSparse) ∧
    (let H : State → Run → MxProg → Prop := fun (s : State) (r : Run) (m : MxProg) =>
      Ready s ∧ LinesGood s ∧ Spent s .uq r ∧ r.opc = 0x32 ∧ s.fab.mxHeld = none ∧ s.fab.resident.prog? (r.fld 12 1) = some m ∧
        (s.fab.resident.mxReadsAcc m.program = false ∨ m.kind = 5 ∨ s.stepClosed r.step = true)
    H (tRunning tRes .uq
      ({ tRun 1 0x32 with issued := true, t := { Tally.zero with tiles := 5, replayed := 2, held := 1, descs := 3, drops := 70000, extra := 4, extra2 := 6 } }))
      ({ tRun 1 0x32 with issued := true, t := { Tally.zero with tiles := 5, replayed := 2, held := 1, descs := 3, drops := 70000, extra := 4, extra2 := 6 } })
      ⟨0, 5, 1, 1, 0#64, 0#64, 0#64⟩) ∧
    (let H : State → Run → Instr → Prop := fun (s : State) (r : Run) (c : Instr) =>
      Ready s ∧ LinesGood s ∧ Last s .uq r ∧ s.stepClosed r.step = true ∧ (s.kappa r.step).isSome = false ∧ r.fld 24 1 % 2 = 0 ∧ ((c = .update ∧
        r.opc = 0x30) ∨ (c = .updateSparse ∧ r.opc = 0x31))
    H
      ({ tRunning tReady .uq { tRun 1 0x30 with step := 1 } with grad := { tReady.grad with openStep := 2, norm := { tReady.grad.norm with timedOut := [1] } } })
      ({ tRun 1 0x30 with step := 1 }) .update ∧ H
      ({ tRunning tReady .uq { tRun 1 0x31 with step := 1 } with grad := { tReady.grad with openStep := 2, norm := { tReady.grad.norm with timedOut := [1] } } })
      ({ tRun 1 0x31 with step := 1 }) .updateSparse) :=
  ⟨by decide +kernel,
    by decide +kernel,
    by decide +kernel,
    by refine ⟨?_, ?_⟩ <;> decide +kernel⟩

theorem test_GathersAndFoldsAreTakenUp :
    (let H : State → Fmt → Prop := fun (s : State) (f : Fmt) =>
      let r := s.newest .gq
      Ready s ∧ LinesGood s ∧ Fresh s .gq 0x10 ∧ r.fld 8 4 = 0 ∧ convOk r.gfmt r.gblk = true ∧ fmtOf r.gfmt = some f ∧ (∀ i, i < r.gatherLast + 1 -
        r.gatherFirst → (s.taken .gq).gatherCheck r (r.gatherFirst + i) = 0) ∧ (s.taken .gq).gatherDstOk (r.fld 24 6) ((s.taken .gq).gatherBytes r f)
        = true
    H (tHead tRes .gq 0x10 [(12, 9), (14, 9), (24, 0xF0000100)]) .kw16 ∧ H (tHead tRes .gq 0x10 [(12, 9), (14, 9), (16, 1), (17, 1), (24,
      0xF0000100)]) .kg16) ∧
    (let H : State → Fmt → Prop := fun (s : State) (f : Fmt) =>
      let r := s.newest .gq
      let es := s.idxEntries (r.fld 40 6) (r.fld 32 4) (s.desc r.gatherFirst).rows
      let r' := { r with rows := touchedRuns (es.filterMap id), t := { r.t with drops := (es.filter Option.isNone).length } }
      Ready s ∧ LinesGood s ∧ Fresh s .gq 0x11 ∧ r.fld 8 4 = 0 ∧ convOk r.gfmt r.gblk = true ∧ fmtOf r.gfmt = some f ∧ (s.taken .gq).gatherCheck r
        r.gatherFirst = 0 ∧ r.fld 32 4 ≤ 16777216 ∧ s.pagesOf [(r.fld 40 6, 8 * r.fld 32 4)] = [] ∧ (s.taken .gq).gatherDstOk (r.fld 24 6) ((s.taken
        .gq).gatherBytes r' f) = true
    H ((tHead tRes .gq 0x11 [(12, 9), (24, 0xF0000100), (32, 2), (40, 0xF0001000)]).store 0xF0001000 (leBytes 8 0 ++ leBytes 8 0x500000000)) .kw16) ∧
    (let H : State → Prop := fun (s : State) =>
      let r := s.newest .aq
      let o := s.grad.openStep
      Ready s ∧ LinesGood s ∧ Fresh s .aq 0x20 ∧ o < r.tagStep
    H (tHead tRes .aq 0x20 [(8, 2), (16, 9), (18, 9)])) ∧
    (let H : State → Prop := fun (s : State) =>
      let r := s.newest .aq
      let o := s.grad.openStep
      Ready s ∧ LinesGood s ∧ Fresh s .aq 0x20 ∧ r.foldDescs.find? (fun d => (s.taken .aq).foldCheck false d != 0) = none ∧ (s.taken .aq).landingOk
        (r.fld 24 6) ((s.taken .aq).landingBytes r.foldDescs) = true ∧ r.tagStep + 1 < o
    H (tHead { tRes with grad := { tRes.grad with openStep := 3 } } .aq 0x20 [(8, 1), (16, 9), (18, 9), (24, 0xF0000100)])) ∧
    (let H : State → Prop := fun (s : State) =>
      let r := s.newest .aq
      let o := s.grad.openStep
      Ready s ∧ LinesGood s ∧ Fresh s .aq 0x20 ∧ r.foldDescs.find? (fun d => (s.taken .aq).foldCheck false d != 0) = none ∧ (s.taken .aq).landingOk
        (r.fld 24 6) ((s.taken .aq).landingBytes r.foldDescs) = true ∧ r.tagStep = o ∧ (s.foldLog o).length < 65536 ∧ (s.foldLog o).any (fun e =>
        e.mbatch = r.fld 12 2 && e.contrib = r.fld 14 2 && e.first ≤ r.foldLast && r.foldFirst ≤ e.last) = false
    H (tHead tRes .aq 0x20 [(8, 1), (12, 7), (14, 8), (16, 9), (18, 9), (24, 0xF0000100)])) ∧
    (let H : State → Prop := fun (s : State) =>
      let r := s.newest .aq
      let o := s.grad.openStep
      let list := r.fld 40 6
      let count := r.fld 32 4
      let rows := ((wordsFrom (s.ext list (8 * count)) 0 count).map (fun w => fld w 47 32 + 1)).foldl (· + ·) 0
      Ready s ∧ LinesGood s ∧ Fresh s .aq 0x21 ∧ r.foldDescs.find? (fun d => (s.taken .aq).foldCheck true d != 0) = none ∧ count ≤ 16777216 ∧
        r.tagStep = o ∧ (s.foldLog o).length < 65536 ∧ (s.foldLog o).any (fun e => e.mbatch = r.fld 12 2 && e.contrib = r.fld 14 2 && e.first ≤
        r.foldLast && r.foldFirst ≤ e.last) = false ∧ s.pagesOf [(list, 8 * count)] = [] ∧ (s.taken .aq).landingOk (r.fld 24 6) (2 * (s.desc
        r.foldFirst).pitch * rows) = true
    H ((tHead tRes .aq 0x21 [(8, 1), (12, 7), (14, 8), (16, 9), (24, 0xF0000100), (32, 2), (40, 0xF0001000)]).store 0xF0001000 (leBytes 8 0 ++
      leBytes 8 0x500000000))) ∧
    (let H : State → Prop := fun (s : State) =>
      Ready s ∧ LinesGood s ∧ Fresh s .aq 0x22
    H (tHead tRes .aq 0x22 [(8, 1)]) ∧ H (tHead tRes .aq 0x22 [(8, 2)]) ∧ H (tHead tRes .aq 0x22 [(8, 0)])) ∧
    (let H : State → Prop := fun (s : State) =>
      let r := s.newest .sq
      Ready s ∧ LinesGood s ∧ Fresh s .sq 0x47 ∧ r.fld 12 1 ≤ 1 ∧ (s.taken .sq).firstBad ((List.range (r.fld 10 2 + 1 - r.fld 8 2)).map (r.fld 8 2 +
        ·)) = none
    H (tHead tRes .sq 0x47 [(8, 9), (10, 9), (12, 1)]) ∧ H (tHead tRes .sq 0x47 [(8, 9), (10, 8), (12, 0)])) :=
  ⟨by refine ⟨?_, ?_⟩ <;> decide +kernel,
    by decide +kernel,
    by decide +kernel,
    by decide +kernel,
    by decide +kernel,
    by decide +kernel,
    by refine ⟨?_, ?_, ?_⟩ <;> decide +kernel,
    by refine ⟨?_, ?_⟩ <;> decide +kernel⟩

theorem test_GathersFoldsAndClosesComplete :
    (let H : State → Run → Instr → Prop := fun (s : State) (r : Run) (c : Instr) =>
      Ready s ∧ LinesGood s ∧ Spent s .gq r ∧ (r.bound = true ∨ r.fld 8 4 = 0) ∧ ((c = .gather ∧ r.opc = 0x10) ∨ (c = .gatherSparse ∧ r.opc = 0x11))
    H (tRunning tReady .gq
      ({ tRun 1 0x10 with issued := true, t := { Tally.zero with tiles := 5, replayed := 2, held := 1, descs := 3, drops := 70000, extra := 4, extra2 := 6 } }))
      ({ tRun 1 0x10 with issued := true, t := { Tally.zero with tiles := 5, replayed := 2, held := 1, descs := 3, drops := 70000, extra := 4, extra2 := 6 } })
      .gather ∧ H (tRunning tReady .gq
      ({ tRun 1 0x11 with issued := true, t := { Tally.zero with tiles := 5, replayed := 2, held := 1, descs := 3, drops := 70000, extra := 4, extra2 := 6 }, bound := true }))
      ({ tRun 1 0x11 with issued := true, t := { Tally.zero with tiles := 5, replayed := 2, held := 1, descs := 3, drops := 70000, extra := 4, extra2 := 6 }, bound := true })
      .gatherSparse) ∧
    (let H : State → Run → Prop := fun (s : State) (r : Run) =>
      Ready s ∧ LinesGood s ∧ Spent s .aq r ∧ r.t.poison = false ∧ r.t.timeout = false ∧ r.t.check = false ∧ r.t.drops = 0 ∧ r.t.extra2 = 0 ∧
        r.t.late = false ∧ r.t.recovered = false ∧ r.opc = 0x20
    H (tRunning tReady .aq ({ tRun 1 0x20 with issued := true, t := { Tally.zero with tiles := 5, replayed := 300, descs := 3, extra := 4 } }))
      ({ tRun 1 0x20 with issued := true, t := { Tally.zero with tiles := 5, replayed := 300, descs := 3, extra := 4 } })) ∧
    (let H : State → Run → Prop := fun (s : State) (r : Run) =>
      Ready s ∧ LinesGood s ∧ Spent s .aq r ∧ r.t.poison = false ∧ r.t.timeout = false ∧ r.t.check = false ∧ r.t.drops = 0 ∧ r.t.extra2 = 0 ∧
        r.t.late = false ∧ r.t.recovered = false ∧ r.opc = 0x21 ∧ r.t.descs ≠ 0
    H (tRunning tReady .aq ({ tRun 1 0x21 with issued := true, t := { Tally.zero with tiles := 5, replayed := 300, descs := 3, extra := 4 } }))
      ({ tRun 1 0x21 with issued := true, t := { Tally.zero with tiles := 5, replayed := 300, descs := 3, extra := 4 } })) ∧
    (let H : State → Run → Prop := fun (s : State) (r : Run) =>
      Ready s ∧ LinesGood s ∧ Spent s .aq r ∧ r.t.poison = false ∧ r.t.timeout = false ∧ r.t.check = false ∧ r.t.drops = 0 ∧ r.t.extra2 = 0 ∧
        r.t.late = false ∧ r.t.recovered = false ∧ r.opc = 0x22 ∧ r.phase = 1 ∧ r.info = [] ∧ (r.fld 20 1).testBit 0 = true
    H (tRunning tReady .aq
      ({ tRun 1 0x22 with issued := true, phase := 1, body := tBody 0x22 [(20, 1)], t := { Tally.zero with tiles := 5, replayed := 300, descs := 3, extra := 4 } }))
      ({ tRun 1 0x22 with issued := true, phase := 1, body := tBody 0x22 [(20, 1)], t := { Tally.zero with tiles := 5, replayed := 300, descs := 3, extra := 4 } })
      ∧ H (tRunning (tReady.setF oNormStat 63 32 5) .aq
      ({ tRun 1 0x22 with issued := true, phase := 1, body := tBody 0x22 [(20, 1)], t := { Tally.zero with tiles := 5, replayed := 300, descs := 3, extra := 4 } }))
      ({ tRun 1 0x22 with issued := true, phase := 1, body := tBody 0x22 [(20, 1)], t := { Tally.zero with tiles := 5, replayed := 300, descs := 3, extra := 4 } })) :=
  ⟨by refine ⟨?_, ?_⟩ <;> decide +kernel,
    by decide +kernel,
    by decide +kernel,
    by refine ⟨?_, ?_⟩ <;> decide +kernel⟩

theorem test_RoundsAreTakenUp :
    (let H : State → Instr → Nat → Prop := fun (s : State) (c : Instr) (opc : Nat) =>
      Ready s ∧ LinesGood s ∧ Fresh s .sq opc ∧ ((c = .reshard ∧ opc = 0x40) ∨ (c = .emitCyan ∧ opc = 0x41)) ∧ (s.mapResident = 0 ∨ (s.newest
        .sq).fld 8 2 ≠ s.mapResident ∨ (opc = 0x41 ∧ s.cyanBuild ≠ s.serving ∧ (s.cyan.reshardOk = false ∨ s.cyan.boundMap ≠ s.liveMap)))
    H (tHead tRes .sq 0x40 [(8, 7)]) .reshard 0x40 ∧ H (tHead ({ (tCyan 0).setF oFabStat 23 12 256 with fab := tRes.fab }) .sq 0x41 [(8, 7)])
      .emitCyan 0x41 ∧ H (tHead ({ (tCyan 0).setF oFabStat 23 12 256 with fab := tRes.fab }) .sq 0x40 [(8, 8)]) .reshard 0x40 ∧ H (tHead
      { ({ (tCyan 0).setF oFabStat 23 12 256 with fab := tRes.fab }) with cyan := { tReady.cyan with reshardOk := true, boundMap := tMap 1 } } .sq
      0x41 [(8, 7)]) .emitCyan 0x41) ∧
    (let H : State → Prop := fun (s : State) =>
      let r := s.newest .sq
      Ready s ∧ LinesGood s ∧ Fresh s .sq 0x40 ∧ s.mapResident ≠ 0 ∧ r.fld 8 2 = s.mapResident ∧ s.cyanSize ≠ 0 ∧ s.cyanBuild ≠ s.serving
    H (tHead ({ (tCyan 0).setF oFabStat 23 12 256 with fab := tRes.fab }) .sq 0x40 [(8, 7)]) ∧ H (tHead
      ({ (((({ (tCyan 0).setF oFabStat 23 12 256 with fab := tRes.fab })).setF oCyanStatb 15 12 1).setF oCyanStatb 31 16 7) with cyan := { tReady.cyan with b := ⟨[⟨1, 256, 5, [], false⟩], true, false, 0⟩ } })
      .sq 0x40 [(8, 7)])) ∧
    (let H : State → Nat → Bool → List (Nat × Nat) → Prop := fun (s : State) (n : Nat) (b : Bool) (bs : List (Nat × Nat)) =>
      let r := s.newest .sq
      Ready s ∧ LinesGood s ∧ Fresh s .sq 0x41 ∧ s.mapResident ≠ 0 ∧ r.fld 8 2 = s.mapResident ∧ s.cyanSize ≠ 0 ∧ s.cyanBuild ≠ s.serving ∧
        s.cyan.reshardOk = true ∧ s.cyan.boundMap = s.liveMap ∧ s.cyan.bound = some (n, b, bs)
    H (tHead
      { ({ (tCyan 0).setF oFabStat 23 12 256 with fab := tRes.fab }) with cyan := { tReady.cyan with reshardOk := true, boundMap := tMap 0, catchups := [{ tCatch false with seq := 2 ^ 32 }], bound := some (3, true, [(9, 0)]), receivers := [⟨1, false, 3, true, false⟩] } }
      .sq 0x41 [(8, 7)]) 3 true [(9, 0)]) :=
  ⟨by refine ⟨?_, ?_, ?_, ?_⟩ <;> decide +kernel,
    by refine ⟨?_, ?_⟩ <;> decide +kernel,
    by decide +kernel⟩

theorem test_RoundsComplete :
    (let H : State → Run → Prop := fun (s : State) (r : Run) =>
      Ready s ∧ LinesGood s ∧ Spent s .sq r ∧ r.rows = [] ∧ (∀ e ∈ s.cyan.ring, e.entry = openEntry ∨ e.waiting = []) ∧ r.opc = 0x40
    H (tRunning tReady .sq ({ tRun 1 0x40 with issued := true, t := { Tally.zero with tiles := 5, replayed := 300, descs := 3, extra := 4 } }))
      ({ tRun 1 0x40 with issued := true, t := { Tally.zero with tiles := 5, replayed := 300, descs := 3, extra := 4 } })) ∧
    (let H : State → Run → Bool → Nat → List (Nat × Nat) → Prop := fun (s : State) (r : Run) (b : Bool) (n : Nat) (bs : List (Nat × Nat)) =>
      Ready s ∧ LinesGood s ∧ Spent s .sq r ∧ r.rows = [] ∧ (∀ e ∈ s.cyan.ring, e.entry = openEntry ∨ e.waiting = []) ∧ r.opc = 0x41 ∧ s.cyan.bound =
        some (n, b, bs)
    H (tRunning
      ({ tRound 0 1 with cyan := { tReady.cyan with b := ⟨[⟨0, 256, 256, [], false⟩], false, true, 0⟩, bound := some (3, true, []), boundMap := tMap 0 } })
      .sq ({ tRun 1 0x41 with issued := true, t := { Tally.zero with tiles := 5, replayed := 300, descs := 3, extra := 4 } }))
      ({ tRun 1 0x41 with issued := true, t := { Tally.zero with tiles := 5, replayed := 300, descs := 3, extra := 4 } }) true 3 []) :=
  ⟨by decide +kernel,
    by decide +kernel⟩

theorem test_SnapshotsAreTakenUpAndSealed :
    (let H : State → Prop := fun (s : State) =>
      let r := s.newest .sq
      Ready s ∧ LinesGood s ∧ Fresh s .sq 0x42 ∧ (r.fld 20 1).testBit 3 = true ∧ s.stepNow ≤ r.fld 8 4 ∧ r.fld 16 4 ≠ 0 ∧ (s.f oSnapCfg 47 32 = 0 ∨
        (r.fld 20 1 % 2 = 1 ∧ s.partner = none))
    H (tHead tRes .sq 0x42 [(12, 9), (14, 9), (16, 5), (20, 8)]) ∧ H (tHead (tRes.setF oSnapCfg 47 32 1) .sq 0x42 [(12, 9), (14, 9), (16, 5), (20,
      9)])) ∧
    (let H : State → Prop := fun (s : State) =>
      let r := s.newest .sq
      let ds := (List.range (r.fld 14 2 + 1 - r.fld 12 2)).map (r.fld 12 2 + ·)
      Ready s ∧ LinesGood s ∧ Fresh s .sq 0x42 ∧ (r.fld 20 1).testBit 3 = true ∧ s.stepNow ≤ r.fld 8 4 ∧ r.fld 16 4 ≠ 0 ∧ s.f oSnapCfg 47 32 ≠ 0 ∧
        (r.fld 20 1 % 2 = 1 → s.partner ≠ none) ∧ (s.taken .sq).firstBad ds = none ∧ (s.taken .sq).partLen ds ((r.fld 20 1).testBit 1) ≤ s.f oSnapCfg
        47 32 * 2 ^ 29 ∧ s.res.halves.length = 2
    H (tHead (tRes.setF oSnapCfg 47 32 1) .sq 0x42 [(12, 9), (14, 9), (16, 5), (20, 8)]) ∧ H (tHead
      ({ tRes.setF oSnapCfg 47 32 1 with res := { tRes.res with halves := [some (tSnap true), none] } }) .sq 0x42 [(8, 5), (12, 9), (14, 9), (16, 5),
      (20, 8)])) ∧
    (let H : State → Run → Nat → Snap → Prop := fun (s : State) (r : Run) (h : Nat) (x : Snap) =>
      Ready s ∧ LinesGood s ∧ Spent s .sq r ∧ r.opc = 0x42 ∧ r.bound = true ∧ s.channels = 0 ∧ (r.fld 20 1).testBit 0 = false ∧ (r.fld 20 1).testBit
        4 = true ∧ s.halfOf true false (r.fld 16 4) = some (h, x) ∧ r.t.poison = false ∧ r.t.timeout = false ∧ r.t.check = false ∧ r.t.recovered =
        false
    H (tRunning ({ (tReady.setF oSnapOpen 63 32 4) with res := { tReady.res with halves := [none, some (tSnap false)] } }) .sq
      ({ tRun 1 0x42 with issued := true, bound := true, body := tBody 0x42 [(16, 4), (20, 16)], t := { Tally.zero with tiles := 5, replayed := 300, descs := 3, extra := 4 } }))
      ({ tRun 1 0x42 with issued := true, bound := true, body := tBody 0x42 [(16, 4), (20, 16)], t := { Tally.zero with tiles := 5, replayed := 300, descs := 3, extra := 4 } })
      1 (tSnap false)) :=
  ⟨by refine ⟨?_, ?_⟩ <;> decide +kernel,
    by refine ⟨?_, ?_⟩ <;> decide +kernel,
    by decide +kernel⟩

theorem test_RestoresRunAndFlip :
    (let H : State → Prop := fun (s : State) =>
      Ready s ∧ LinesGood s ∧ Fresh s .sq 0x43 ∧ s.commitPhase ≠ 0
    H (tHead
      ((({ tRes.setF oSnapStat 31 0 4 with res := { tRes.res with halves := [some (({ tSnap true with records := [⟨9, 9, 9, 0#64, tDesc, [], false⟩] })), none] } })).setF
      oCommitState 31 28 4) .sq 0x43 [(12, 9), (14, 9), (16, 9)])) ∧
    (let H : State → Prop := fun (s : State) =>
      let r := s.newest .sq
      Ready s ∧ LinesGood s ∧ Fresh s .sq 0x43 ∧ s.commitPhase = 0 ∧ s.run .uq = none ∧ (r.restPairs.map (·.2)).any s.step.written.contains = false ∧
        (s.taken .sq).firstBad (r.restPairs.map (·.2)) = none ∧ r.fromPartner = true ∧ s.partner = none
    H (tHead
      ({ tRes.setF oSnapStat 31 0 4 with res := { tRes.res with halves := [some (({ tSnap true with records := [⟨9, 9, 9, 0#64, tDesc, [], false⟩] })), none] } })
      .sq 0x43 [(8, 5), (12, 9), (14, 9), (16, 9), (20, 2)])) ∧
    (let H : State → Nat → Prop := fun (s : State) (p : Nat) =>
      let r := s.newest .sq
      Ready s ∧ LinesGood s ∧ Fresh s .sq 0x43 ∧ s.commitPhase = 0 ∧ s.run .uq = none ∧ (r.restPairs.map (·.2)).any s.step.written.contains = false ∧
        (s.taken .sq).firstBad (r.restPairs.map (·.2)) = none ∧ r.fromPartner = true ∧ s.partner = some p
    H (tHead
      (((({ tRes.setF oSnapStat 31 0 4 with res := { tRes.res with halves := [some (({ tSnap true with records := [⟨9, 9, 9, 0#64, tDesc, [], false⟩] })), none] } })).setB
      oSnapCfg 55 true).setF oSnapCfg 63 56 5) .sq 0x43 [(8, 5), (12, 9), (14, 9), (16, 9), (20, 2)]) 5) ∧
    (let H : State → Prop := fun (s : State) =>
      let r := s.newest .sq
      Ready s ∧ LinesGood s ∧ Fresh s .sq 0x43 ∧ s.commitPhase = 0 ∧ s.run .uq = none ∧ (r.restPairs.map (·.2)).any s.step.written.contains = false ∧
        (s.taken .sq).firstBad (r.restPairs.map (·.2)) = none ∧ r.fromPartner = false ∧ s.namedSnap (r.fld 8 4) = none
    H (tHead
      ({ tRes.setF oSnapStat 31 0 4 with res := { tRes.res with halves := [some (({ tSnap true with records := [⟨9, 9, 9, 0#64, tDesc, [], false⟩] })), none] } })
      .sq 0x43 [(8, 5), (12, 9), (14, 9), (16, 9)])) ∧
    (let H : State → Snap → Prop := fun (s : State) (x : Snap) =>
      let r := s.newest .sq
      Ready s ∧ LinesGood s ∧ Fresh s .sq 0x43 ∧ s.commitPhase = 0 ∧ s.run .uq = none ∧ (r.restPairs.map (·.2)).any s.step.written.contains = false ∧
        (s.taken .sq).firstBad (r.restPairs.map (·.2)) = none ∧ r.fromPartner = false ∧ s.namedSnap (r.fld 8 4) = some x ∧ (s.taken .sq).restBad r
        x.records = false
    H (tHead
      ({ tRes.setF oSnapStat 31 0 4 with res := { tRes.res with halves := [some (({ tSnap true with records := [⟨9, 9, 9, 0#64, tDesc, [], false⟩] })), none] } })
      .sq 0x43 [(12, 9), (14, 9), (16, 9)]) ({ tSnap true with records := [⟨9, 9, 9, 0#64, tDesc, [], false⟩] }) ∧ H (tHead
      ((({ tRes.setF oSnapStat 31 0 4 with res := { tRes.res with halves := [some (({ tSnap true with records := [⟨9, 9, 9, 0#64, tDesc, [], false⟩] })), none] } })).setB
      oSnapCfg 55 true) .sq 0x43 [(8, 4), (12, 9), (14, 9), (16, 9)]) ({ tSnap true with records := [⟨9, 9, 9, 0#64, tDesc, [], false⟩] })) ∧
    (let H : State → Run → RestoreSt → Prop := fun (s : State) (r : Run) (x : RestoreSt) =>
      Ready s ∧ LinesGood s ∧ Spent s .sq r ∧ r.opc = 0x43 ∧ r.phase ≠ 2 ∧ s.res.restore = some x ∧ (x.tables.isSome = true ∨ x.waited = true) ∧
        r.fld 14 2 < r.desc
    H (tRunning ({ tReady with res := { tReady.res with restore := some { tRest with waited := true } } }) .sq
      ({ tRestRun false with issued := true, desc := 10 })) ({ tRestRun false with issued := true, desc := 10 }) ({ tRest with waited := true })) ∧
    (let H : State → Run → RestoreSt → Int → Snap → Nat → Nat → SnapRecord → Prop := fun (s : State) (r : Run) (x : RestoreSt) (ns : Int) (y : Snap)
      (d tgt : Nat) (e : SnapRecord) =>
      Ready s ∧ LinesGood s ∧ Last s .sq r ∧ r.opc = 0x43 ∧ r.phase = 2 ∧ nth 0 r.info 0 ≤ s.beat ∧ s.beat + 1 < 2 ^ 48 ∧ s.commit.decided = none ∧
        s.res.restore = some x ∧ x.failed = [] ∧ r.fromPartner = false ∧ s.namedSnap x.snapId = some y ∧ r.restPairs = [(d, tgt)] ∧ tgt < 65536 ∧
        y.records.find? (·.desc == d) = some e
    H (tRunning
      ({ ({ tRes.setF oSnapStat 31 0 4 with res := { tRes.res with halves := [some (({ tSnap true with records := [⟨9, 9, 9, 0#64, tDesc, [], false⟩] })), none] } }) with res := { ({ tRes.setF oSnapStat 31 0 4 with res := { tRes.res with halves := [some (({ tSnap true with records := [⟨9, 9, 9, 0#64, tDesc, [], false⟩] })), none] } }).res with restore := some tRest } })
      .sq ({ tRun 1 0x43 with phase := 2, info := [0], body := tBody 0x43 [(8, 4), (12, 9), (14, 9), (16, 9)] }))
      ({ tRun 1 0x43 with phase := 2, info := [0], body := tBody 0x43 [(8, 4), (12, 9), (14, 9), (16, 9)] }) tRest 3
      ({ tSnap true with records := [⟨9, 9, 9, 0#64, tDesc, [], false⟩] }) 9 9 ⟨9, 9, 9, 0#64, tDesc, [], false⟩) :=
  ⟨by decide +kernel,
    by decide +kernel,
    by decide +kernel,
    by decide +kernel,
    by refine ⟨?_, ?_⟩ <;> decide +kernel,
    by decide +kernel,
    by decide +kernel⟩

theorem test_StashCommandsRun :
    (let H : State → Instr → Nat → Prop := fun (s : State) (c : Instr) (opc : Nat) =>
      let r := s.newest .sq
      Ready s ∧ LinesGood s ∧ Fresh s .sq opc ∧ ((c = .stashPut ∧ opc = 0x44) ∨ (c = .stashGet ∧ opc = 0x45)) ∧ opc = 0x44 ∧ (s.stashRegion.2 = 0 ∨
        r.fld 12 2 = 0)
    H (tHead tRes .sq 0x44 [(8, 3), (10, 60), (12, 1), (16, 5), (24, 0xF0000100), (32, 0xF0001000)]) .stashPut 0x44 ∧ H (tHead tStash .sq 0x44 [(8,
      3), (10, 60), (12, 0), (16, 5), (24, 0xF0000100), (32, 0xF0001000)]) .stashPut 0x44) ∧
    (let H : State → Instr → Nat → Prop := fun (s : State) (c : Instr) (opc : Nat) =>
      let r := s.newest .sq
      let l := s.stashLayer r
      let toks := r.stashBlocks.map ((s.taken .sq).stashTokens r)
      Ready s ∧ LinesGood s ∧ Fresh s .sq opc ∧ ((c = .stashPut ∧ opc = 0x44) ∨ (c = .stashGet ∧ opc = 0x45)) ∧ s.stashRegion.2 ≠ 0 ∧ r.fld 8 2 ≤ 255
        ∧ 0 < r.fld 12 2 ∧ r.fld 12 2 ≤ 2048 ∧ r.fld 10 2 + r.fld 12 2 ≤ 2048 ∧ r.fld 16 2 ≤ 2048 ∧ l.ok = true ∧ (opc = 0x44 → l.slotMax ((r.fld 14
        1).testBit 0) ≤ l.stride) ∧ (∀ b ∈ r.stashBlocks, s.stashRegion.1 ≤ l.slot b ∧ l.slot b + l.slotMax ((s.taken .sq).stashLossy r b) ≤
        s.stashRegion.1 + s.stashRegion.2) ∧ (hostBlocks (r.fld 24 6) (toks.map (fun t => 2 * t * l.dim))).all (fun x => (s.taken .sq).hostSideOk x.1
        x.2) = true ∧ (l.heads ≠ 0 → (hostBlocks (r.fld 32 6) (toks.map (fun t => 8 * t * l.heads))).all (fun x => (s.taken .sq).hostSideOk x.1 x.2)
        = true) ∧ (opc = 0x45 → ∀ b ∈ r.stashBlocks, 2 ^ 63 ≤ s.num (indexAddr (r.fld 8 2) b) 8)
    H (tHead tStash .sq 0x44 [(8, 3), (10, 60), (12, 1), (16, 5), (24, 0xF0000100), (32, 0xF0001000)]) .stashPut 0x44 ∧ H ((tHead tStash .sq 0x45
      [(8, 3), (10, 5), (12, 1), (24, 0xF0000100), (32, 0xF0001000)]).store (indexAddr 3 5) (leBytes 8 (2 ^ 63))) .stashGet 0x45) ∧
    (let H : State → Run → Instr → Prop := fun (s : State) (r : Run) (c : Instr) =>
      Ready s ∧ LinesGood s ∧ Spent s .sq r ∧ ((c = .stashPut ∧ r.opc = 0x44) ∨ (c = .stashGet ∧ r.opc = 0x45))
    H (tRunning tReady .sq
      ({ tRun 1 0x44 with issued := true, t := { Tally.zero with tiles := 5, replayed := 2, held := 1, descs := 3, drops := 70000, extra := 4, extra2 := 6 } }))
      ({ tRun 1 0x44 with issued := true, t := { Tally.zero with tiles := 5, replayed := 2, held := 1, descs := 3, drops := 70000, extra := 4, extra2 := 6 } })
      .stashPut ∧ H (tRunning tReady .sq
      ({ tRun 1 0x45 with issued := true, t := { Tally.zero with tiles := 5, replayed := 2, held := 1, descs := 3, drops := 70000, extra := 4, extra2 := 6 } }))
      ({ tRun 1 0x45 with issued := true, t := { Tally.zero with tiles := 5, replayed := 2, held := 1, descs := 3, drops := 70000, extra := 4, extra2 := 6 } })
      .stashGet) ∧
    (let H : State → Run → Prop := fun (s : State) (r : Run) =>
      Ready s ∧ LinesGood s ∧ Spent s .sq r ∧ r.opc = 0x47
    H (tRunning tReady .sq
      ({ tRun 1 0x47 with issued := true, t := { Tally.zero with tiles := 5, replayed := 2, held := 1, descs := 3, drops := 70000, extra := 4, extra2 := 6 } }))
      ({ tRun 1 0x47 with issued := true, t := { Tally.zero with tiles := 5, replayed := 2, held := 1, descs := 3, drops := 70000, extra := 4, extra2 := 6 } })) :=
  ⟨by refine ⟨?_, ?_⟩ <;> decide +kernel,
    by refine ⟨?_, ?_⟩ <;> decide +kernel,
    by refine ⟨?_, ?_⟩ <;> decide +kernel,
    by decide +kernel⟩

theorem test_CommitPreparesVotesOrIsDiscarded :
    (let H : State → Prop := fun (s : State) =>
      let r := s.newest .uq
      Ready s ∧ LinesGood s ∧ Fresh s .uq 0x33 ∧ r.fld 8 4 = (s.stepNow + 1) % 2 ^ 32 ∧ r.fld 14 2 ≤ 4096 ∧ (r.fld 12 1).testBit 1 = false ∧
        s.commitPhase ≠ 4
    H (tHead tRes .uq 0x33 [(8, 1)]) ∧ H (tHead (tRes.setF oSnapCfg 31 16 0) .uq 0x33 [(8, 1), (12, 1), (14, 4096)])) ∧
    (let H : State → Run → Nat → Prop := fun (s : State) (r : Run) (p : Nat) =>
      Ready s ∧ LinesGood s ∧ s.queues.length = 4 ∧ s.run .uq = some r ∧ r.opc = 0x33 ∧ r.phase = 0 ∧ s.writesOut = false ∧ s.commit.decided = none ∧
        s.b oBeatSync 31 = true ∧ s.isCoord = false ∧ s.normParent = some p
    H ({ tRunning (tMember.setB oBeatSync 31 true) .uq { tRun 1 0x33 with step := 1 } with step := { tReady.step with set := [9], held := [] } })
      ({ tRun 1 0x33 with step := 1 }) 1 ∧ H
      ({ tRunning (tMember.setB oBeatSync 31 true) .uq { tRun 1 0x33 with step := 1 } with step := { tReady.step with set := [9], held := [⟨9, true, false⟩] } })
      ({ tRun 1 0x33 with step := 1 }) 1 ∧ H
      ({ tRunning (tMember.setB oBeatSync 31 true) .uq { tRun 1 0x33 with step := 1 } with step := { tReady.step with set := [9], held := [], failed := 0x24 } })
      ({ tRun 1 0x33 with step := 1 }) 1) ∧
    (let H : State → Run → Prop := fun (s : State) (r : Run) =>
      Ready s ∧ s.run .uq = some r ∧ r.opc = 0x33 ∧ (s.writesOut = true ∨ 2 ≤ r.phase ∨ (s.b oBeatSync 31 = false ∧ s.commit.decided = none ∧ r.phase
        = 1))
    H (tRunning tReady .uq { tRun 1 0x33 with step := 1, phase := 1 }) ({ tRun 1 0x33 with step := 1, phase := 1 })) ∧
    (let H : State → Run → Prop := fun (s : State) (r : Run) =>
      Ready s ∧ LinesGood s ∧ s.queues.length = 4 ∧ s.run .uq = some r ∧ r.opc = 0x33 ∧ r.phase = 0 ∧ s.writesOut = false ∧ s.commit.decided = none ∧
        s.b oBeatSync 31 = true ∧ s.isCoord = true ∧ s.members = [s.me] ∧ s.groupSize = 1 ∧ s.normKids = [] ∧ s.commit.votes = [] ∧ s.step.held = []
        ∧ s.step.failed = 0 ∧ s.beat + tSync 1 < 2 ^ 48
    H (tRunning (((tReady.setReg oCommitGroup 0#64).setB oBeatSync 31 true).setF oBeatNow 47 0 7) .uq { tRun 1 0x33 with step := 1 })
      ({ tRun 1 0x33 with step := 1 })) ∧
    (let H : State → Prop := fun (s : State) =>
      Ready s ∧ LinesGood s ∧ Fresh s .uq 0x34 ∧ (s.newest .uq).fld 8 4 = (s.stepNow + 1) % 2 ^ 32
    H (tHead tRes .uq 0x34 [(8, 1)])) :=
  ⟨by refine ⟨?_, ?_⟩ <;> decide +kernel,
    by refine ⟨?_, ?_, ?_⟩ <;> decide +kernel,
    by decide +kernel,
    by decide +kernel,
    by decide +kernel⟩

theorem test_BarriersAndFencesWait :
    (let H : State → Queue → Prop := fun (s : State) (q : Queue) =>
      let r := s.newest q
      let w := r.fld 12 1
      Ready s ∧ LinesGood s ∧ Fresh s q 0x01 ∧ (w = 0xFF ∨ (w < 4 ∧ w ≠ qIdx q ∧ s.seqDone (qOf w) (r.fld 8 4) = true) ∨ (w = qIdx q ∧ 0 < sub32
        r.seq (r.fld 8 4) ∧ sub32 r.seq (r.fld 8 4) < 2 ^ 31)) ∧ r.fld 13 1 % 2 = 0
    H (tHead tReady .aq 0x01 [(12, 0xFF)]) .aq ∧ H (tHead tReady .sq 0x01 [(12, 1), (8, 0)]) .sq ∧ H (tHead tReady .gq 0x01 [(8, 0xFFFFFFFF), (12,
      0)]) .gq) ∧
    (let H : State → Queue → Prop := fun (s : State) (q : Queue) =>
      let r := s.newest q
      let w := r.fld 12 1
      Ready s ∧ LinesGood s ∧ Fresh s q 0x01 ∧ (w = 0xFF ∨ (w < 4 ∧ w ≠ qIdx q ∧ s.seqDone (qOf w) (r.fld 8 4) = true) ∨ (w = qIdx q ∧ 0 < sub32
        r.seq (r.fld 8 4) ∧ sub32 r.seq (r.fld 8 4) < 2 ^ 31)) ∧ r.fld 13 1 % 2 = 1
    H (tHead (tReady.setB oBeatSync 31 true) .gq 0x01 [(12, 0xFF), (13, 1)]) .gq) ∧
    (let H : State → Queue → Prop := fun (s : State) (q : Queue) =>
      let r := s.newest q
      let w := r.fld 12 1
      Ready s ∧ LinesGood s ∧ Fresh s q 0x01 ∧ ((4 ≤ w ∧ w ≠ 0xFF) ∨ (w = qIdx q ∧ ¬ (0 < sub32 r.seq (r.fld 8 4) ∧ sub32 r.seq (r.fld 8 4) < 2 ^
        31)))
    H (tHead tReady .uq 0x01 [(12, 4)]) .uq ∧ H (tHead tReady .gq 0x01 [(12, 0)]) .gq) ∧
    (let H : State → Queue → Prop := fun (s : State) (q : Queue) =>
      let r := s.newest q
      let w := r.fld 12 1
      Ready s ∧ LinesGood s ∧ Fresh s q 0x01 ∧ w < 4 ∧ w ≠ qIdx q ∧ s.seqDone (qOf w) (r.fld 8 4) = false
    H (tHead tReady .uq 0x01 [(12, 1), (8, 1)]) .uq) ∧
    (let H : State → Queue → Run → Int → Prop := fun (s : State) (q : Queue) (r : Run) (ns : Int) =>
      Ready s ∧ LinesGood s ∧ Last s q r ∧ s.barriersDue = [q]
    H
      ({ tRunning ((tReady.setF oCommitGroup 47 40 0).setF oCommitGroup 39 32 0) .aq { tRun 1 0x01 with phase := 1, info := [0, 0] } with freeCtr := 0 })
      .aq ({ tRun 1 0x01 with phase := 1, info := [0, 0] }) (-50)) ∧
    (let H : State → Queue → Run → Prop := fun (s : State) (q : Queue) (r : Run) =>
      Ready s ∧ LinesGood s ∧ Last s q r ∧ r.opc = 0x01 ∧ r.phase = 1 ∧ r.info ≠ [] ∧ r.info.headD 0 + s.voteTimeout ≤ s.beat
    H ((tRunning tReady .aq { tRun 1 0x01 with phase := 1, info := [0] }).setF oBeatNow 47 0 100000) .aq
      ({ tRun 1 0x01 with phase := 1, info := [0] })) ∧
    (let H : State → Queue → Run → Prop := fun (s : State) (q : Queue) (r : Run) =>
      Ready s ∧ LinesGood s ∧ Last s q r ∧ r.opc = 0x01 ∧ r.phase = 1 ∧ (r.info = [] ∨ s.beat < r.info.headD 0 + s.voteTimeout)
    H (tRunning (tReady.setF oCommitGroup 31 16 5) .aq { tRun 1 0x01 with phase := 1 }) .aq ({ tRun 1 0x01 with phase := 1 }) ∧ H (tRunning
      (tReady.setF oCommitGroup 31 16 5) .aq { tRun 1 0x01 with phase := 1, info := [0, 0] }) .aq ({ tRun 1 0x01 with phase := 1, info := [0, 0] })) ∧
    (let H : State → Prop := fun (s : State) =>
      (∀ q, q ≠ .sq → s.seqDone q (s.posted q) = true) ∧ Ready s ∧ LinesGood s ∧ Fresh s .sq 0x4F
    H (tHead tReady .sq 0x4F [])) ∧
    (let H : State → Prop := fun (s : State) =>
      (∃ q, q ≠ .sq ∧ s.seqDone q (s.posted q) = false) ∧ Ready s ∧ LinesGood s ∧ Fresh s .sq 0x4F
    H (tHead (tQueue tReady .aq 2 1) .sq 0x4F [])) :=
  ⟨by refine ⟨?_, ?_, ?_⟩ <;> decide +kernel,
    by decide +kernel,
    by refine ⟨?_, ?_⟩ <;> decide +kernel,
    by decide +kernel,
    by decide +kernel,
    by decide +kernel,
    by refine ⟨?_, ?_⟩ <;> decide +kernel,
    ⟨forall_queue (by decide +kernel), by decide +kernel⟩,
    ⟨⟨.aq, by decide +kernel, by decide +kernel⟩, by decide +kernel⟩⟩

theorem test_HintsFlagTheirPages :
    (let H : State → Instr → Nat → Prop := fun (s : State) (c : Instr) (act : Nat) =>
      let r := s.newest .sq
      let a := r.fld 8 6
      let n := r.fld 16 4
      let ok := a % 2 ^ 21 = 0 ∧ 0 < n ∧ n ≤ 4194304 ∧ 0x10000000000 ≤ a ∧ a + n * 2 ^ 21 ≤ 0x10000000000 + s.f oTierMap 22 0 * 2 ^ 21
      Ready s ∧ LinesGood s ∧ NothingWaits s ∧ Fresh s .sq 0x46 ∧ (s.newest .sq).fld 20 1 = act ∧ ((c = .prefetch ∧ act = 0) ∨ (c = .demote ∧ act =
        1) ∨ (c = .keep ∧ act = 2) ∨ (c = .release ∧ act = 3) ∨ (c = .clear ∧ act = 4) ∨ (c = .refetch ∧ act = 5)) ∧ (¬ ok)
    H (tHead tTier .sq 0x46 [(20, 0), (16, 2), (8, 0x10000000000 + 2097152 * 15)]) .prefetch 0 ∧ H (tHead tTier .sq 0x46 [(20, 1), (16, 2), (8,
      0x10000000000 + 2097152 * 15)]) .demote 1 ∧ H (tHead tTier .sq 0x46 [(20, 2), (16, 2), (8, 0x10000000000 + 2097152 * 15)]) .keep 2 ∧ H (tHead
      tTier .sq 0x46 [(20, 3), (16, 2), (8, 0x10000000000 + 2097152 * 15)]) .release 3 ∧ H (tHead tTier .sq 0x46 [(20, 4), (16, 2), (8, 0x10000000000
      + 2097152 * 15)]) .clear 4 ∧ H (tHead tTier .sq 0x46 [(20, 5), (16, 2), (8, 0x10000000000 + 2097152 * 15)]) .refetch 5) ∧
    (let H : State → Instr → Nat → Prop := fun (s : State) (c : Instr) (act : Nat) =>
      let r := s.newest .sq
      let a := r.fld 8 6
      let n := r.fld 16 4
      let ok := a % 2 ^ 21 = 0 ∧ 0 < n ∧ n ≤ 4194304 ∧ 0x10000000000 ≤ a ∧ a + n * 2 ^ 21 ≤ 0x10000000000 + s.f oTierMap 22 0 * 2 ^ 21
      Ready s ∧ LinesGood s ∧ NothingWaits s ∧ Fresh s .sq 0x46 ∧ (s.newest .sq).fld 20 1 = act ∧ ((c = .prefetch ∧ act = 0) ∨ (c = .demote ∧ act =
        1) ∨ (c = .keep ∧ act = 2) ∨ (c = .release ∧ act = 3) ∨ (c = .clear ∧ act = 4) ∨ (c = .refetch ∧ act = 5)) ∧ ok ∧ act = 1
    H (tHead tTier .sq 0x46 [(20, 1), (16, 1), (8, 0x10000000000 + 2097152 * 15)]) .demote 1) ∧
    (let H : State → Instr → Nat → Prop := fun (s : State) (c : Instr) (act : Nat) =>
      let r := s.newest .sq
      let a := r.fld 8 6
      let n := r.fld 16 4
      let ok := a % 2 ^ 21 = 0 ∧ 0 < n ∧ n ≤ 4194304 ∧ 0x10000000000 ≤ a ∧ a + n * 2 ^ 21 ≤ 0x10000000000 + s.f oTierMap 22 0 * 2 ^ 21
      Ready s ∧ LinesGood s ∧ NothingWaits s ∧ Fresh s .sq 0x46 ∧ (s.newest .sq).fld 20 1 = act ∧ ((c = .prefetch ∧ act = 0) ∨ (c = .demote ∧ act =
        1) ∨ (c = .keep ∧ act = 2) ∨ (c = .release ∧ act = 3) ∨ (c = .clear ∧ act = 4) ∨ (c = .refetch ∧ act = 5)) ∧ ok ∧ act = 2 ∧
        (((s.tier.pages.filter (fun e => e.2.keep)).map (·.1) ++ r.hintPages).eraseDups).length ≤ s.f oTierStat 63 47 - s.f oTierMap 48 32 - 2 * s.f
        oTierCfg 47 40
    H (tHead ((tTier.setF oTierStat 63 47 2048).setF oTierMap 48 32 1024) .sq 0x46 [(20, 2), (16, 2), (8, 0x10000000000 + 2097152 * 1)]) .keep 2) ∧
    (let H : State → Instr → Nat → Prop := fun (s : State) (c : Instr) (act : Nat) =>
      let r := s.newest .sq
      let a := r.fld 8 6
      let n := r.fld 16 4
      let ok := a % 2 ^ 21 = 0 ∧ 0 < n ∧ n ≤ 4194304 ∧ 0x10000000000 ≤ a ∧ a + n * 2 ^ 21 ≤ 0x10000000000 + s.f oTierMap 22 0 * 2 ^ 21
      Ready s ∧ LinesGood s ∧ NothingWaits s ∧ Fresh s .sq 0x46 ∧ (s.newest .sq).fld 20 1 = act ∧ ((c = .prefetch ∧ act = 0) ∨ (c = .demote ∧ act =
        1) ∨ (c = .keep ∧ act = 2) ∨ (c = .release ∧ act = 3) ∨ (c = .clear ∧ act = 4) ∨ (c = .refetch ∧ act = 5)) ∧ ok ∧ act = 3
    H (tHead ({ tTier with tier := { tTier.tier with pages := [(3, { tPage .resident with keep := true, frame := some 4 })] } }) .sq 0x46 [(20, 3),
      (16, 2), (8, 0x10000000000 + 2097152 * 2)]) .release 3) :=
  ⟨by refine ⟨?_, ?_, ?_, ?_, ?_, ?_⟩ <;> decide +kernel,
    by decide +kernel,
    by decide +kernel,
    by decide +kernel⟩

theorem test_HintsMoveTheirPages :
    (let H : State → Prop := fun (s : State) =>
      let r := s.newest .sq
      let a := r.fld 8 6
      let n := r.fld 16 4
      let act := r.fld 20 1
      Ready s ∧ LinesGood s ∧ NothingWaits s ∧ Fresh s .sq 0x46 ∧ a % 2 ^ 21 = 0 ∧ 0 < n ∧ n ≤ 4194304 ∧ 0x10000000000 ≤ a ∧ a + n * 2 ^ 21 ≤
        0x10000000000 + s.f oTierMap 22 0 * 2 ^ 21 ∧ act = 4 ∧ (∀ i ∈ r.hintPages, (s.page i).st ≠ .fetching)
    H (tHead ({ tTier with tier := { tTier.tier with pages := [(3, tPage .poisoned), (4, { tPage .resident with frame := some 4 })] } }) .sq 0x46
      [(20, 4), (16, 2), (8, 0x10000000000 + 2097152 * 3)])) ∧
    (let H : State → Nat → Nat → Nat → List Nat → Prop := fun (s : State) (i : Nat) (f : Nat) (p : Nat) (rest : List Nat) =>
      let r := s.newest .sq
      let a := r.fld 8 6
      let n := r.fld 16 4
      let act := r.fld 20 1
      Ready s ∧ LinesGood s ∧ NothingWaits s ∧ Fresh s .sq 0x46 ∧ a % 2 ^ 21 = 0 ∧ 0 < n ∧ n ≤ 4194304 ∧ 0x10000000000 ≤ a ∧ a + n * 2 ^ 21 ≤
        0x10000000000 + s.f oTierMap 22 0 * 2 ^ 21 ∧ act = 5 ∧ r.hintPages = [i] ∧ (s.page i).st = .poisoned ∧ (s.page i).got = true ∧ s.tier.free =
        f :: rest ∧ s.partner = some p ∧ s.tier.fetches.any (·.1 == i) = false
    H (tHead ({ tTier with tier := { tTier.tier with pages := [(3, { tPage .poisoned with got := true })] } }) .sq 0x46 [(20, 5), (16, 1), (8,
      0x10000000000 + 2097152 * 3)]) 3 5 5 [6]) ∧
    (let H : State → Nat → Prop := fun (s : State) (i : Nat) =>
      let r := s.newest .sq
      let a := r.fld 8 6
      let n := r.fld 16 4
      let act := r.fld 20 1
      Ready s ∧ LinesGood s ∧ NothingWaits s ∧ Fresh s .sq 0x46 ∧ a % 2 ^ 21 = 0 ∧ 0 < n ∧ n ≤ 4194304 ∧ 0x10000000000 ≤ a ∧ a + n * 2 ^ 21 ≤
        0x10000000000 + s.f oTierMap 22 0 * 2 ^ 21 ∧ act = 0 ∧ r.hintPages = [i] ∧ (s.page i).st = .zero ∧ s.tier.waits = []
    H (tHead tTier .sq 0x46 [(20, 0), (16, 1), (8, 0x10000000000 + 2097152 * 3)]) 3) ∧
    (let H : State → Prop := fun (s : State) =>
      let r := s.newest .sq
      let a := r.fld 8 6
      let n := r.fld 16 4
      let act := r.fld 20 1
      Ready s ∧ LinesGood s ∧ NothingWaits s ∧ Fresh s .sq 0x46 ∧ a % 2 ^ 21 = 0 ∧ 0 < n ∧ n ≤ 4194304 ∧ 0x10000000000 ≤ a ∧ a + n * 2 ^ 21 ≤
        0x10000000000 + s.f oTierMap 22 0 * 2 ^ 21 ∧ act = 0 ∧ (∀ i ∈ r.hintPages, (s.page i).served = true) ∧ s.tier.waits = []
    H (tHead ({ tTier with tier := { tTier.tier with pages := [(3, { tPage .resident with frame := some 4 })] } }) .sq 0x46 [(20, 0), (16, 1), (8,
      0x10000000000 + 2097152 * 3)])) :=
  ⟨by decide +kernel,
    by decide +kernel,
    by decide +kernel,
    by decide +kernel⟩

end Sys2Proof.Tests
end

section
/-! The identity registers (R3 to R10). They are alone in the block's first page, below CTL at 0x1000. Nothing there is staged, is writable or is laid
out from another part of the state, so a read gives the stored word and a write over HCP changes nothing. -/
namespace Sys2Proof.Machine

open Sys2Proof.Safety

/-! What a register access does -/

/-- A plain register over HCP: its write is a write of fields (R13, R457). -/
theorem State.regWrite_hcp_of_plainRegister {o : Nat} (s : State) (w : Word) (ho : o < 2 ^ 20) (ha : o % 8 = 0) (hp : plainRegister o = true) :
    s.regWrite .hcp o w = s.fieldWrite o w := by
  have hport : ¬ 1048576 ≤ o := by omega
  simp only [plainRegister, Bool.and_eq_true, Bool.not_eq_true', bne_iff_ne, ne_eq] at hp
  obtain ⟨⟨⟨⟨⟨⟨⟨hService, hCtl⟩, hStageCtl⟩, hQCfg⟩, hDoorbell⟩, hFabSwap⟩, hMxSwap⟩, hStaged⟩ := hp
  simp [State.regWrite, hport, ha, hService, hCtl, hStageCtl, hQCfg, hDoorbell, hFabSwap, hMxSwap, hStaged]

/-- A register with neither RW nor W1C bits keeps its value (R13). -/
theorem State.fieldWrite_of_masks_zero {o : Nat} (s : State) (w : Word) (hrw : rwMask o = 0#64) (hw1c : w1cMask o = 0#64) :
    s.fieldWrite o w = s := by
  simp only [State.fieldWrite, hrw, hw1c, BitVec.and_zero, BitVec.not_zero, BitVec.zero_or, BitVec.and_allOnes, if_true]

/-- A sound state stays sound when an acknowledgement joins its outputs. -/
theorem State.acked_wf {s : State} (h : s.wf = true) (port : RegPort) (err : Bool) : (s.acked port err).wf = true :=
  State.wf_of_eq h rfl rfl rfl rfl rfl rfl

/-- A register write through an open port: the write, then its acknowledgement (R391). -/
theorem exec_registerWrite_of_portOpen {s : State} (h : s.portOpen = true) (port : RegPort) (o : Nat) (w : Word) :
    exec (.registerWrite port o w) s = .next (s.kept ((s.regWrite port o w).acked port (writeErr port o))) :=
  s.portNow_open (fun s => (s.regWrite port o w).acked port (writeErr port o)) h

/-- A write that its register ignores is acknowledged, and nothing else happens. -/
theorem exec_registerWrite_of_ignored {s : State} {port : RegPort} {o : Nat} {w : Word} (hs : Open s) (h : s.regWrite port o w = s) :
    exec (.registerWrite port o w) s = .next (s.acked port (writeErr port o)) := by
  obtain ⟨hwf, hopen⟩ := hs
  rw [exec_registerWrite_of_portOpen hopen, h, s.kept_of_wf (State.acked_wf hwf ..) rfl]

/-! The page below CTL -/

theorem ne_of_below_ctl {o k : Nat} (h : o < 0x1000) (hk : 0x1000 ≤ k) : o ≠ k := by omega

theorem inFam_of_below_ctl {o base : Nat} (h : o < 0x1000) (hb : 0x1000 ≤ base) (step n : Nat) : inFam o base step n = false := by
  simp [inFam, Nat.not_le.mpr (h.trans_le hb)]

theorem stMask_of_below_ctl {o : Nat} (h : o < 0x1000) : stMask o = 0#64 := by
  simp [stMask, ne_of_below_ctl h, inFam_of_below_ctl h]

theorem rwMask_of_below_ctl {o : Nat} (h : o < 0x1000) : rwMask o = 0#64 := by
  simp [rwMask, ne_of_below_ctl h, inFam_of_below_ctl h]

theorem w1cMask_of_below_ctl {o : Nat} (h : o < 0x1000) : w1cMask o = 0#64 := by
  simp [w1cMask, ne_of_below_ctl h, inFam_of_below_ctl h]

theorem isStaged_of_below_ctl {o : Nat} (h : o < 0x1000) : isStaged o = false := by
  simp [isStaged, stMask_of_below_ctl h]

theorem plainRegister_of_below_ctl {o : Nat} (h : o < 0x1000) : plainRegister o = true := by
  have hService : ¬ 0xD000 ≤ o := by omega
  simp [plainRegister, hService, isStaged_of_below_ctl h, ne_of_below_ctl h, inFam_of_below_ctl h, oCtl, oStageCtl, oFabSwap, oMxSwap]

theorem not_mem_writeOnly_of_below_ctl {o : Nat} (h : o < 0x1000) : o ∉ writeOnly := by
  have hall : ∀ k ∈ writeOnly, 0x1000 ≤ k := by decide
  exact fun ho => ne_of_below_ctl h (hall o ho) rfl

/-- What the engine lays out from the rest of its state stands above the page: a read there gives the stored word. -/
theorem State.regValue_of_below_ctl {o : Nat} (s : State) (h : o < 0x1000) : s.regValue o = s.reg o := by
  simp [State.regValue, not_mem_writeOnly_of_below_ctl h, ne_of_below_ctl h, inFam_of_below_ctl h, oStat, oStrmPool, oStrmStopped, oTierStat,
    oStashStat, oSnapOpen, oPwrStat, oDbgSeq]

theorem State.readPort_of_below_ctl {o : Nat} (s : State) (port : RegPort) (h : o < 0x1000) : s.readPort port o = s.reg o := by
  simp [State.readPort, oSvMir, ne_of_below_ctl h, inFam_of_below_ctl h, isStaged_of_below_ctl h, s.regValue_of_below_ctl h]

theorem State.regWrite_hcp_of_below_ctl {o : Nat} (s : State) (w : Word) (h : o < 0x1000) (ha : o % 8 = 0) : s.regWrite .hcp o w = s := by
  rw [s.regWrite_hcp_of_plainRegister w (by omega) ha (plainRegister_of_below_ctl h),
    s.fieldWrite_of_masks_zero w (rwMask_of_below_ctl h) (w1cMask_of_below_ctl h)]

end Sys2Proof.Machine

namespace Sys2Proof.Safety

open Sys2Proof.Machine

/-- Settles O3: the six registers lie below CTL, where a read gives the word of the Reset column and a write changes nothing. -/
theorem identityRegistersReadAsFixed : Obligations.IdentityRegistersReadAsFixed := by
  unfold Obligations.IdentityRegistersReadAsFixed
  constructor
  · intro port
    have hId : State.reset.readPort port oBlockId = 0x4B525A4501000000#64 := State.reset.readPort_of_below_ctl port (by decide)
    have hVersion : State.reset.readPort port oBlockVersion = 0x0000000300000001#64 := State.reset.readPort_of_below_ctl port (by decide)
    have hCaps0 : State.reset.readPort port oCaps0 = 0x0042000804288100#64 := State.reset.readPort_of_below_ctl port (by decide)
    have hCaps1 : State.reset.readPort port oCaps1 = 0x0080201040021440#64 := State.reset.readPort_of_below_ctl port (by decide)
    have hCaps2 : State.reset.readPort port oCaps2 = 0x0000800818082040#64 := State.reset.readPort_of_below_ctl port (by decide)
    have hCaps3 : State.reset.readPort port oCaps3 = 0x010001FFFFFF0440#64 := State.reset.readPort_of_below_ctl port (by decide)
    rw [hId, hVersion, hCaps0, hCaps1, hCaps2, hCaps3]
    decide
  · intro s o w hopen ho
    have hpage : ∀ k ∈ [oBlockId, oBlockVersion, oCaps0, oCaps1, oCaps2, oCaps3], k < 0x1000 ∧ k % 8 = 0 := by decide
    obtain ⟨hlt, haligned⟩ := hpage o ho
    exact exec_registerWrite_of_ignored hopen (s.regWrite_hcp_of_below_ctl w hlt haligned)

end Sys2Proof.Safety
end

section
/-! The beat offset (R28). Whatever else a boundary does, its faults, completions, restores and evictions included, it leaves the runs of bad and good
boundaries as they were, and the engine following its master: `Follows` is kept by every operation but the measurement of the offset. -/
namespace Sys2Proof.Machine

variable {bad good : Nat} {s t : State}

/-- The engine follows a beat master (R27) and has seen so many bad, or good, boundaries in a row (R28). Registers in canonical order make a register
read independent of writes to the others. -/
structure Follows (bad good : Nat) (s : State) : Prop where
  badRun : s.peer.badRun = bad
  goodRun : s.peer.goodRun = good
  sorted : fsorted s.live = true
  slave : s.b oBeatCfg 16 = false

namespace Follows

/-! The operations over the state -/

/-- An operation that touches neither a register nor the runs of boundaries. -/
theorem of_eq (h : Follows bad good s)
    (heq : (t.live, t.peer.badRun, t.peer.goodRun) = (s.live, s.peer.badRun, s.peer.goodRun)) : Follows bad good t := by
  obtain ⟨hlive, hruns⟩ := Prod.mk.inj heq
  obtain ⟨hbad, hgood⟩ := Prod.mk.inj hruns
  exact ⟨hbad.trans h.badRun, hgood.trans h.goodRun, hlive ▸ h.sorted, by rw [State.b, State.reg, hlive]; exact h.slave⟩

theorem ite {c : Prop} [Decidable c] (ht : Follows bad good t) (hs : Follows bad good s) : Follows bad good (if c then t else s) := by
  split <;> assumption

theorem foldl {α : Type} {g : State → α → State} {l : List α} (h : Follows bad good s)
    (hg : ∀ t a, a ∈ l → Follows bad good t → Follows bad good (g t a)) : Follows bad good (l.foldl g s) :=
  List.foldlRecOn l g h (fun t ht a ha => hg t a ha ht)

/-- A write to another register than BEAT_CFG. The two are told apart by a test, which for two named registers `rfl` decides. -/
theorem setReg {o : Nat} {w : Word} (h : Follows bad good s) (ho : (o == oBeatCfg) = false) : Follows bad good (s.setReg o w) where
  badRun := h.badRun
  goodRun := h.goodRun
  sorted := fset_sorted h.sorted
  slave := by
    have hreg : (s.setReg o w).reg oBeatCfg = s.reg oBeatCfg := by
      simp only [State.reg, State.setReg, fget_fset h.sorted, if_neg (ne_of_beq_false ho).symm]
    rw [State.b, hreg]
    exact h.slave

theorem upd {o : Nat} {g : Word → Word} (h : Follows bad good s) (ho : (o == oBeatCfg) = false) : Follows bad good (s.upd o g) :=
  h.setReg ho

theorem setF {o hi lo v : Nat} (h : Follows bad good s) (ho : (o == oBeatCfg) = false) : Follows bad good (s.setF o hi lo v) :=
  h.setReg ho

theorem setB {o i : Nat} {b : Bool} (h : Follows bad good s) (ho : (o == oBeatCfg) = false) : Follows bad good (s.setB o i b) :=
  h.setReg ho

theorem count {o hi lo n : Nat} (h : Follows bad good s) (ho : (o == oBeatCfg) = false) : Follows bad good (s.count o hi lo n) :=
  h.setReg ho

/-- The length of a beat stands in BEAT_CFG beside the role of master (R26). -/
theorem setLen {l : Nat} (h : Follows bad good s) : Follows bad good (s.setF oBeatCfg 6 0 l) where
  badRun := h.badRun
  goodRun := h.goodRun
  sorted := fset_sorted h.sorted
  slave := by
    have hreg : (s.setF oBeatCfg 6 0 l).reg oBeatCfg = setFld (s.reg oBeatCfg) 6 0 l := by
      simp only [State.reg, State.setF, State.upd, State.setReg, fget_fset h.sorted, if_true]
    rw [State.b, hreg, bit_setFld_other _ _ _ _ _ (by decide) (by decide) (by decide)]
    exact h.slave

theorem setStale {ks : List Nat} (h : Follows bad good s) : Follows bad good (s.setStale ks) :=
  h.foldl fun _ k _ ht => ht.setB (beq_false_of_ne (by unfold oAdmitReport oBeatCfg; omega))

theorem life {k n : Nat} (h : Follows bad good s) : Follows bad good (s.life k n) := h.count (beq_false_of_ne (by unfold oLife oBeatCfg; omega))

theorem put {a : Nat} {bs : List Byte} (h : Follows bad good s) : Follows bad good (s.put a bs) :=
  h.of_eq (by rw [s.put_live, s.put_peer])

theorem storeNum {a n v : Nat} (h : Follows bad good s) : Follows bad good (s.storeNum a n v) := h.put

theorem drawn {n : Nat} (h : Follows bad good s) : Follows bad good (s.drawn n) := h.of_eq rfl

theorem setRun {q : Queue} {r : Option Run} (h : Follows bad good s) : Follows bad good (s.setRun q r) := h.of_eq rfl

theorem setRing {k : Nat} {r : Ring} (h : Follows bad good s) : Follows bad good (s.setRing k r) := h.of_eq rfl

theorem setPage {i : Nat} {p : Page} (h : Follows bad good s) : Follows bad good (s.setPage i p) := h.of_eq rfl

theorem setBlock {k : Nat} {b : Block} (h : Follows bad good s) : Follows bad good (s.setBlock k b) := h.of_eq rfl

theorem logWrite {e : LogWrite} (h : Follows bad good s) : Follows bad good (s.logWrite e) := h.of_eq rfl

theorem send {m : PeerMsg} (h : Follows bad good s) : Follows bad good (s.send m) := by
  unfold State.send
  dsimp only
  split
  · exact h.of_eq rfl
  · exact .drawn (.foldl (.of_eq h rfl) fun _ _ _ ht => .of_eq ht rfl)

/-! Faults -/

theorem logFault {e : FaultEv} (h : Follows bad good s) : Follows bad good (s.logFault e) := .count (.setF h.put rfl) rfl

theorem fault {e : FaultEv} (h : Follows bad good s) : Follows bad good (s.fault e) :=
  .ite h.logFault (.ite (.setB h.logFault rfl) (.setReg (.setReg (.setReg h.logFault rfl) rfl) rfl))

theorem stackFault {line seq desc tile result addr : Nat} {q : Option Queue} (h : Follows bad good s) :
    Follows bad good (s.stackFault line q seq desc tile result addr) := by
  unfold State.stackFault
  exact .fault (.ite (.life (.count h rfl)) (.setReg (.life (.count h rfl)) rfl))

theorem putBy {q : Queue} {desc a : Nat} {bs : List Byte} (h : Follows bad good s) : Follows bad good (s.putBy q desc a bs) :=
  .ite h.stackFault h.put

theorem recordFault {q : Queue} {seq desc tile addr n : Nat} (h : Follows bad good s) :
    Follows bad good (s.recordFault q seq desc tile addr n) :=
  .ite h.stackFault h

theorem setWord7 {q : Queue} {d : Nat} {f : Word → Word} (h : Follows bad good s) : Follows bad good (s.setWord7 q d f) := .logWrite h.putBy

/-! The ends of commands -/

theorem leaveRings {q : Queue} {seq : Nat} (h : Follows bad good s) : Follows bad good (s.leaveRings q seq) := by
  unfold State.leaveRings
  dsimp only
  split
  · exact .ite (h.of_eq rfl) (h.of_eq rfl)
  · exact .ite h (h.of_eq rfl)

theorem finish {q : Queue} {seq opc tag result ext beat : Nat} {best : Bool} {dw : List Nat} (h : Follows bad good s) :
    Follows bad good (s.finish q seq opc tag result best ext beat dw) := by
  have hDone : (oQDoneSeq (qIdx q) == oBeatCfg) = false := beq_false_of_ne (by unfold oQDoneSeq oBeatCfg; omega)
  have hStat : (oQStat (qIdx q) == oBeatCfg) = false := beq_false_of_ne (by unfold oQStat oBeatCfg; omega)
  have hPut : ∀ {desc a bs}, Follows bad good ((s.putBy q desc a bs).setF (oQDoneSeq (qIdx q)) 31 0 seq) := h.putBy.setF hDone
  exact .setRun (.ite (.setF (.leaveRings (.ite (hPut.count hStat) hPut)) rfl) (.leaveRings (.ite (hPut.count hStat) hPut)))

theorem complete {q : Queue} {r : Run} {result : Nat} {dw : List Nat} (h : Follows bad good s) :
    Follows bad good (s.complete q r result dw) :=
  .finish (.ite (h.of_eq rfl) h)

theorem abortHead {q : Queue} {reason found : Nat} (h : Follows bad good s) : Follows bad good (s.abortHead q reason found) :=
  .ite (.finish h.stackFault) h.finish

theorem settleFrom {q : Queue} {n : Nat} (h : Follows bad good s) : Follows bad good (s.settleFrom q n) := by
  induction n generalizing s with
  | zero => exact h
  | succ n ih =>
    unfold State.settleFrom
    split
    · exact h
    · split
      · exact h
      · exact ih h.abortHead

theorem settleHead {q : Queue} (h : Follows bad good s) : Follows bad good (s.settleHead q) := .ite h h.settleFrom

/-! A boundary before its offset is measured -/

theorem readyLost {unit : Nat} {diverged : Bool} (h : Follows bad good s) : Follows bad good (s.readyLost unit diverged) := by
  unfold State.readyLost
  exact .fault (.upd (.ite (.setB h rfl) h) rfl)

theorem noteMissed (h : Follows bad good s) : Follows bad good s.noteMissed := by
  unfold State.noteMissed
  dsimp only
  split
  · exact h
  · split
    · exact .ite h.readyLost (h.of_eq rfl)
    · exact .ite h.readyLost h

theorem extend (h : Follows bad good s) : Follows bad good s.extend :=
  h.foldl fun t q _ ht => by
    split
    · exact .ite ht.setRun ht
    · exact ht

theorem ringsBoundary (h : Follows bad good s) : Follows bad good s.ringsBoundary :=
  h.foldl fun t e _ ht => by
    have hStarved : (oStrmStat e == oBeatCfg) = false := beq_false_of_ne (by unfold oStrmStat oBeatCfg; omega)
    exact .ite ht (.foldl (.ite (ht.count hStarved) ht) fun _ _ _ hu => hu.setRing)

theorem countWaits (h : Follows bad good s) : Follows bad good s.countWaits := by
  unfold State.countWaits
  extract_lets u
  have hu : Follows bad good u := by
    unfold u
    split
    · exact .ite h.setRun h
    · exact h
  split
  · exact .ite hu.setRun hu
  · exact hu

theorem shares (h : Follows bad good s) : Follows bad good s.shares := .drawn (.setReg h rfl)

theorem barriersEnd {qs : List Queue} (h : Follows bad good s) : Follows bad good (s.barriersEnd qs) :=
  h.foldl fun t q _ ht => by
    split
    · exact .settleHead (.complete ht)
    · exact ht

theorem lenDue (h : Follows bad good s) : Follows bad good s.lenDue := by
  unfold State.lenDue
  split
  · exact .ite (.setStale (.of_eq h.setLen rfl)) (.of_eq h.setLen rfl)
  · exact h

theorem thermal (h : Follows bad good s) : Follows bad good s.thermal := by
  unfold State.thermal
  extract_lets
  split
  extract_lets _ _ low widths _ lanes cut counted
  have hWidths : Follows bad good widths := .setB (.setF (.setF h rfl) rfl) rfl
  have hLanes : Follows bad good lanes := hWidths.of_eq rfl
  have hCut : Follows bad good cut := .ite (.setStale (.setB hLanes rfl)) hLanes
  have hCounted : Follows bad good counted := .ite (.count hCut rfl) hCut
  exact .ite (hCounted.of_eq rfl) hCounted

theorem cyanSwitch (h : Follows bad good s) : Follows bad good s.cyanSwitch := .ite (.setB (.setB h rfl) rfl) h

/-! A restore that flips at the boundary -/

theorem snapBind {r : Run} (h : Follows bad good s) : Follows bad good (s.snapBind r).1 :=
  .of_eq (.foldl h fun _ _ _ ht => .ite ht.stackFault ht.stackFault) rfl

theorem bindWaiting (h : Follows bad good s) : Follows bad good s.bindWaiting := by
  unfold State.bindWaiting
  extract_lets u
  have hu : Follows bad good u := by
    unfold u
    split
    · exact .ite h.setRun h
    · exact h
  split
  · exact .ite (.setRun hu.snapBind) hu
  · exact hu

theorem clearPending {q : Queue} {d : Nat} (h : Follows bad good s) : Follows bad good (s.clearPending q d) :=
  h.foldl fun _ _ _ ht => .ite (.ite (.storeNum (.storeNum ht)) ht) (.ite ht ht.recordFault)

theorem restAmax {d : Nat} {page : List Byte} (h : Follows bad good s) : Follows bad good (s.restAmax d page) :=
  h.clearPending.foldl fun _ _ _ ht => ht.putBy

theorem restGrad {step : Nat} (h : Follows bad good s) : Follows bad good (s.restGrad step) := by
  unfold State.restGrad
  extract_lets u norm
  have hu : Follows bad good u := h.foldl fun _ _ _ ht => .storeNum (.storeNum (.storeNum ht))
  exact hu.of_eq rfl

theorem setForward {q : Queue} {d : Nat} {runs : List (Nat × Nat)} {all : Option Bool} (h : Follows bad good s) :
    Follows bad good (s.setForward q d runs all) := by
  unfold State.setForward
  dsimp only
  split
  · exact .setWord7 (h.of_eq rfl)
  · split
    · exact .setWord7 (h.of_eq rfl)
    · exact h.of_eq rfl

theorem restFlip {r : Run} {x : RestoreSt} (h : Follows bad good s) : Follows bad good (s.restFlip r x) := by
  unfold State.restFlip
  extract_lets _ ok lost _ flipped forwarded _ _ through begun _ counted logged _ ended
  have hFlipped : Follows bad good flipped := h.foldl fun _ _ _ ht => by
    dsimp only
    split
    · exact ht
    · exact .setWord7 (.of_eq ht.restAmax rfl)
  have hForwarded : Follows bad good forwarded := hFlipped.foldl fun _ _ _ ht => .ite ht ht.setForward
  have hThrough : Follows bad good through := hForwarded.of_eq rfl
  have hBegun : Follows bad good begun := .ite (.bindWaiting (.setF hThrough.restGrad rfl)) hThrough
  have hCounted : Follows bad good counted := .count (.setReg hBegun rfl) rfl
  have hLogged : Follows bad good logged := .ite hCounted.logFault hCounted
  have hEnded : Follows bad good ended := hLogged.of_eq rfl
  exact .settleHead hEnded.complete

theorem restDue (h : Follows bad good s) : Follows bad good s.restDue := by
  unfold State.restDue
  split
  · exact .ite h.restFlip h
  · exact h

/-! A boundary after its offset is measured -/

theorem noteReady (h : Follows bad good s) : Follows bad good s.noteReady := .ite (h.of_eq rfl) h

theorem readySend (h : Follows bad good s) : Follows bad good s.readySend := by
  have hSet : Follows bad good (s.setF oStageResult 3 0 4) := h.setF rfl
  exact .ite (.noteReady (hSet.of_eq rfl)) h.noteReady

theorem arriveSent (h : Follows bad good s) : Follows bad good s.arriveSent :=
  h.foldl fun _ _ _ ht => by
    split
    · exact .ite ht.setRun ht
    · exact ht

theorem request {i q who : Nat} (h : Follows bad good s) : Follows bad good (s.request i q who) := by
  unfold State.request
  extract_lets p u
  have hCancelled : Follows bad good ((s.cancelEvict i).setPage i { p with st := .resident, dirty := true, held := p.demote }) := h.of_eq rfl
  have hu : Follows bad good u := .ite (hCancelled.count rfl) (.ite h.setPage h)
  exact .ite hu (hu.of_eq rfl)

theorem reachAhead {q : Queue} (h : Follows bad good s) : Follows bad good (s.reachAhead q) := by
  unfold State.reachAhead
  split
  · exact h
  · split
    · exact h.foldl fun _ _ _ ht => ht.request
    · exact h

theorem tightStale (h : Follows bad good s) : Follows bad good s.tightStale := .ite h.setStale h

/-! The pages that a boundary evicts -/

theorem dropFrame {i : Nat} (h : Follows bad good s) : Follows bad good (s.dropFrame i) := by
  unfold State.dropFrame
  split
  · exact h.of_eq rfl
  · exact h

theorem leaveFrame {i : Nat} (h : Follows bad good s) : Follows bad good (s.leaveFrame i) := by
  have hCleared : Follows bad good ((s.dropFrame i).clearPage i) := h.dropFrame.of_eq rfl
  exact .logWrite hCleared.setPage

theorem poison {i : Nat} (h : Follows bad good s) : Follows bad good (s.poison i) := by
  unfold State.poison
  extract_lets _ _ waits _ out
  have hVoid : Follows bad good (s.voidPromote i) := h.of_eq rfl
  have hWaits : Follows bad good waits := hVoid.dropFrame.of_eq rfl
  have hOut : Follows bad good out := .ite (.setF (.logWrite hWaits.setPage) rfl) (.logWrite hWaits.setPage)
  exact hOut.fault

theorem fetchTry {i : Nat} (h : Follows bad good s) : Follows bad good (s.fetchTry i) := by
  unfold State.fetchTry
  split
  · exact h
  · split
    · exact h.poison
    · exact .ite (.send (h.of_eq rfl)) (.ite h h.poison)

theorem crimson {i unit ch : Nat} (h : Follows bad good s) : Follows bad good (s.crimson i unit ch) := by
  unfold State.crimson
  exact .fetchTry (.logFault (.setB (.setReg (.setReg h.setPage rfl) rfl) rfl))

theorem damage {k : Nat} {x : Snap} {ts : List StoreTile} (h : Follows bad good s) : Follows bad good (s.damage k x ts) := by
  unfold State.damage
  extract_lets _ _ _ u
  have hu : Follows bad good u := .setB (h.of_eq rfl) rfl
  exact .ite hu (.ite (hu.setB rfl) (hu.setB rfl))

theorem storeLost {u : Nat} (h : Follows bad good s) : Follows bad good (s.storeLost u) := by
  unfold State.storeLost
  split
  · exact h
  · split
    · exact h
    · exact .ite h.damage h
    · exact .ite h.send (.ite h.damage (h.foldl fun _ _ _ ht => ht.send))

theorem lostUnit {u ch : Nat} (h : Follows bad good s) : Follows bad good (s.lostUnit u ch) := by
  unfold State.lostUnit
  exact .ite h.storeLost (.ite h.setPage (.ite h.crimson h))

theorem retireBlock {k : Nat} (h : Follows bad good s) : Follows bad good (s.retireBlock k) := by
  unfold State.retireBlock
  extract_lets _ u
  have hu : Follows bad good u := .count h.setBlock rfl
  exact .ite h (hu.of_eq rfl)

theorem readLost {o : BridgeOp} (h : Follows bad good s) : Follows bad good (s.readLost o) := by
  unfold State.readLost
  split
  · exact .ite h.crimson (.ite h.fetchTry h)
  · exact .ite h.lostUnit (h.of_eq rfl)
  · exact h.retireBlock.lostUnit
  · exact h.lostUnit
  · exact h

theorem pushOp {o : BridgeOp} (h : Follows bad good s) : Follows bad good (s.pushOp o) := .ite (h.of_eq rfl) (h.of_eq rfl)

theorem readUnit {phys : Nat} {use : OpUse} (h : Follows bad good s) : Follows bad good (s.readUnit phys use) := .ite h.readLost h.pushOp

theorem relocateBlock {k : Nat} {into : Option Nat} (h : Follows bad good s) : Follows bad good (s.relocateBlock k into) := by
  unfold State.relocateBlock
  extract_lets _ closed moved
  have hClosed : Follows bad good closed := .ite h.setBlock h
  have hMoved : Follows bad good moved := hClosed.foldl fun _ _ _ ht => ht.readUnit
  exact hMoved.of_eq rfl

theorem collect {lun : Nat} (h : Follows bad good s) : Follows bad good (s.collect lun) := by
  unfold State.collect
  dsimp only
  split
  · exact h.relocateBlock
  · exact h

theorem starveGrey {cls : GreyClass} (h : Follows bad good s) : Follows bad good (s.starveGrey cls) := by
  unfold State.starveGrey
  extract_lets u
  have hu : Follows bad good u := .setB h rfl
  exact .ite hu (.count (hu.of_eq rfl) rfl)

theorem tightLun {lun cls : Nat} (h : Follows bad good s) : Follows bad good (s.tightLun lun cls) := by
  unfold State.tightLun
  exact .ite h (.ite h.starveGrey.setStale h.starveGrey.setStale.collect)

theorem takePage {k : Nat} (h : Follows bad good s) : Follows bad good (s.takePage k).1 := h.setBlock

theorem pageIn {lun cls p : Nat} (h : Follows bad good s) (ht : s.pageIn lun cls = some (t, p)) : Follows bad good t := by
  have hTaken : ∀ {u k}, Follows bad good u → u.takePage k = (t, p) → Follows bad good t := fun {u k} hu heq => by
    simpa only [heq] using hu.takePage (k := k)
  have hOpened : ∀ {k}, Follows bad good (s.openBlock k cls) := h.of_eq rfl
  unfold State.pageIn at ht
  split at ht
  · exact hTaken h (Option.some.inj ht)
  · obtain ⟨k, -, hk⟩ := Option.map_eq_some_iff.mp ht
    exact hTaken hOpened hk

theorem place {cls p : Nat} (h : Follows bad good s) (ht : s.place cls = some (t, p)) : Follows bad good t := by
  unfold State.place at ht
  dsimp only at ht
  split at ht
  · refine pageIn ?_ ht
    exact h.of_eq rfl
  · exact nomatch ht

theorem program {cls unit : Nat} {digest : BitVec 32} {data : List Byte} {use : OpUse} (h : Follows bad good s) :
    Follows bad good (s.program cls unit digest data use).1 := by
  unfold State.program
  extract_lets spot
  have hSpot : ∀ {t p}, spot = some (t, p) → Follows bad good t := by
    intro t p ht
    unfold spot at ht
    split at ht
    · split at ht
      · rename_i k _
        simpa only [Option.some.inj ht] using h.takePage (k := k)
      · exact h.place ht
    · exact h.place ht
  clear_value spot
  split
  · exact h
  · exact .tightLun (.pushOp (.of_eq (hSpot rfl) rfl))

theorem programPage {i : Nat} {digest : BitVec 32} {bs : List Byte} {use : Nat → OpUse} (h : Follows bad good s) :
    Follows bad good (s.programPage i digest bs use).1 := by
  have hRead : Follows bad good ((s.setPage i { s.page i with going := digest }).seqRings 32) :=
    h.setPage.foldl fun _ _ _ ht => .ite ht (.setRing (.setRing (ht.foldl fun _ _ _ hu => .ite hu hu.setRing)))
  refine List.foldlRecOn (motive := fun x : State × Bool => Follows bad good x.1) _ _ hRead fun x hx k _ => ?_
  dsimp only
  split
  · exact hx.program
  · exact hx

theorem programNowhere {use : OpUse} (h : Follows bad good s) : Follows bad good (s.programNowhere use) := by
  unfold State.programNowhere
  split
  · exact h.of_eq rfl
  · exact h.poison
  · exact h.of_eq rfl
  · exact h

theorem evict {i : Nat} (h : Follows bad good s) : Follows bad good (s.evict i) := by
  have hProgram : ∀ {u i d bs use}, Follows bad good u → Follows bad good (State.programPage u i d bs use).1 := programPage
  unfold State.evict
  -- While it is a variable the kernel does not run the 128 programs of the page to compare what the next steps make of the body.
  generalize State.programPage = program at hProgram ⊢
  revert program
  refine id fun program hProgram => ?_
  extract_lets _ g bs d begun told
  have hBegun : Follows bad good begun := h.setPage
  have hTold : Follows bad good told := by
    unfold told
    split
    · exact .ite hBegun.send hBegun
    · exact hBegun
  have hDone : Follows bad good (program told i d bs (fun u => .evict i u)).1 := hProgram hTold
  exact .ite h.setPage.leaveFrame (.ite hDone hDone.programNowhere)

theorem evictHeld (h : Follows bad good s) : Follows bad good s.evictHeld := .ite h (h.foldl fun _ _ _ ht => ht.evict)

/-! The boundary -/

/-- An offset beyond 50 ns counts toward the bad boundaries in a row, any other toward the good ones, each beginning the other again (R28). -/
theorem offset {ns : Int} (h : Follows bad good s) :
    Follows (if 50 < ns.natAbs then bad + 1 else 0) (if 50 < ns.natAbs then 0 else good + 1) (s.offset ns) := by
  have hSet : Follows bad good (s.setF oBeatSync 15 0 (BitVec.ofInt 16 ns).toNat) := h.setF rfl
  rw [State.offset, h.slave, if_neg Bool.false_ne_true, ← h.badRun, ← h.goodRun]
  exact ⟨rfl, rfl, hSet.sorted, hSet.slave⟩

/-- With nothing due (no flip, no APPLY) a boundary counts its offset and leaves the runs otherwise alone. -/
theorem boundary {ns : Int} (h : Follows bad good s) (hcalm : s.calm = true) :
    Follows (if 50 < ns.natAbs then bad + 1 else 0) (if 50 < ns.natAbs then 0 else good + 1) (s.boundary ns) := by
  unfold State.boundary
  rw [State.settle_calm hcalm]
  extract_lets _ _ _ _ begun _ long _ stale quiesced _ cool _ amber switched offered sent
  have hBegun : Follows bad good begun := .life (.setF (.shares (.countWaits (.ringsBoundary (.extend h.noteMissed)))) rfl)
  have hLong : Follows bad good long := .lenDue (.barriersEnd hBegun)
  have hStale : Follows bad good stale := .ite hLong.setStale hLong
  have hQuiesced : Follows bad good quiesced := hStale.of_eq rfl
  have hCool : Follows bad good cool := .thermal (.ite (hQuiesced.of_eq rfl) hQuiesced)
  have hAmber : Follows bad good amber := .ite (hCool.count rfl) (hCool.of_eq rfl)
  have hSwitched : Follows bad good switched := .ite hAmber (.ite hAmber.cyanSwitch (.restDue hAmber.cyanSwitch))
  have hOffered : Follows _ _ offered := .arriveSent (.readySend hSwitched.offset)
  have hSent : Follows _ _ sent := hOffered.send
  exact .ite (.tightStale (.evictHeld (.foldl hSent fun _ _ _ ht => ht.reachAhead))) hSent

end Follows

/-! What the fault of R28 leaves in the registers -/

/-- A fault logged changes FAULT_LOG alone (R365). -/
theorem State.reg_logFault (h : s.wf = true) (e : FaultEv) {o : Nat} (ho : o ≠ oFaultLog) : (s.logFault e).reg o = s.reg o := by
  have hPut := State.wf_put (0x3C000000 + 32 * s.f oFaultLog 9 0) (e.entry s.beat) h
  rw [State.logFault, State.reg_count (State.wf_setF _ _ _ _ hPut), if_neg ho, State.reg_setF hPut, if_neg ho, State.reg, State.put_live]
  rfl

/-- FAULT_RECORD after a detected fault (R365): a record that stands notes the overflow, else the fault is captured. -/
theorem State.reg_faultRecord_fault (h : s.wf = true) {e : FaultEv} (he : e.detected = true) :
    (s.fault e).reg oFaultRecord = if s.b oFaultRecord 63 then setBit (s.reg oFaultRecord) 62 true
      else setFld (setFld (setFld (setFld (setFld 0#64 63 63 1) 55 48 e.cls) 47 40 e.result) 39 36 e.qCode) 31 0 e.seq := by
  have hLog := State.wf_logFault e h
  have hReg : (s.logFault e).reg oFaultRecord = s.reg oFaultRecord := State.reg_logFault h e (by decide)
  have hBit : (s.logFault e).b oFaultRecord 63 = s.b oFaultRecord 63 := congrArg (bit · 63) hReg
  simp only [State.fault, he, hBit, Bool.not_true, Bool.false_eq_true, if_false]
  split
  · rw [State.reg_setB hLog, if_pos rfl, hReg]
  · rw [State.reg_setReg (State.wf_setReg _ _ (State.wf_setReg _ _ hLog)), if_neg (by decide), State.reg_setReg (State.wf_setReg _ _ hLog),
      if_neg (by decide), State.reg_setReg hLog, if_pos rfl]

/-- A fault leaves every register but those of faults (R365). -/
theorem State.reg_fault_other (h : s.wf = true) (e : FaultEv) {o : Nat} (ho : o ∉ [oFaultRecord, oFaultBeat, oFaultWhere, oFaultLog]) :
    (s.fault e).reg o = s.reg o := by
  simp only [List.mem_cons, List.not_mem_nil, or_false, not_or] at ho
  obtain ⟨hRecord, hBeat, hWhere, hLog⟩ := ho
  have hwf := State.wf_logFault e h
  have hReg : (s.logFault e).reg o = s.reg o := State.reg_logFault h e hLog
  unfold State.fault
  extract_lets u w
  split
  · exact hReg
  · split
    · rw [State.reg_setB hwf, if_neg hRecord, hReg]
    · rw [State.reg_setReg (State.wf_setReg _ _ (State.wf_setReg _ _ hwf)), if_neg hWhere, State.reg_setReg (State.wf_setReg _ _ hwf),
        if_neg hBeat, State.reg_setReg hwf, if_neg hRecord, hReg]

/-- A detected fault stands in FAULT_RECORD (R365). -/
theorem State.fault_captured (h : s.wf = true) {e : FaultEv} (he : e.detected = true) : (s.fault e).b oFaultRecord 63 = true := by
  rw [State.b, State.reg_faultRecord_fault h he]
  split
  · rename_i hStands
    rw [bit_setBit_other _ _ _ _ (by decide) (by decide)]
    exact hStands
  · iterate 4 rw [bit_setFld_other _ _ _ _ _ (by decide) (by decide) (by decide)]
    decide

/-- The fault captured in an empty FAULT_RECORD shows its class (R365). -/
theorem State.fault_class (h : s.wf = true) {e : FaultEv} (he : e.detected = true) (hEmpty : s.b oFaultRecord 63 = false) :
    (s.fault e).f oFaultRecord 55 48 = e.cls % 2 ^ 8 := by
  rw [State.f, State.reg_faultRecord_fault h he, hEmpty, if_neg Bool.false_ne_true]
  iterate 3 rw [fld_setFld_other _ _ _ _ _ _ (by decide) (by decide) (by decide)]
  exact fld_setFld_same _ _ _ _ (by decide) (by decide)

theorem State.reg_kept (s : State) {t : State} (h : t.wf = true) (o : Nat) : (s.kept t).reg o = t.reg o := by
  rw [State.kept, State.canon_of_wf h]
  rfl

/-- A row of beat sync once beats run (R442). -/
theorem State.act_beats {g : State → State} (h : 3 ≤ s.pin.phase) :
    s.act (fun s => if s.pin.phase < 3 then s else g s) = .next (s.kept (g s)) := by
  have hBeats : ¬ s.pin.phase < 3 := by omega
  rw [State.act_on _ (by omega : s.pin.phase ≠ 0), if_neg hBeats]

/-- The bad and good boundaries in a row after a boundary (R28). -/
theorem exec_beatBoundary_runs {ns : Int} (hwf : s.wf = true) (hphase : 3 ≤ s.pin.phase) (hcalm : s.calm = true)
    (hslave : s.b oBeatCfg 16 = false) : Safety.Leads (.beatBoundary ns) s (fun t =>
      t.peer.badRun = (if 50 < ns.natAbs then s.peer.badRun + 1 else 0) ∧ t.peer.goodRun = (if 50 < ns.natAbs then 0 else s.peer.goodRun + 1)) := by
  have hstart : Follows s.peer.badRun s.peer.goodRun s := ⟨rfl, rfl, State.live_sorted hwf, hslave⟩
  have hend := hstart.boundary (ns := ns) hcalm
  exact ⟨_, State.act_beats hphase, hend.badRun, hend.goodRun⟩

/-- The state in which SYNC_FAULT is captured: SYNC_FAULT is set and LOCKED is clear (R28). -/
def State.unlocked (s : State) : State := (s.setB oBeatSync 32 true).setB oBeatSync 31 false

theorem State.unlocked_wf (h : s.wf = true) : s.unlocked.wf = true := State.wf_setB _ _ _ (State.wf_setB _ _ _ h)

theorem State.reg_unlocked (h : s.wf = true) (o : Nat) :
    s.unlocked.reg o = if o = oBeatSync then setBit (setBit (s.reg oBeatSync) 32 true) 31 false else s.reg o := by
  rw [State.unlocked, State.reg_setB (State.wf_setB _ _ _ h), State.reg_setB h, State.reg_setB h, if_pos rfl]
  split <;> rfl

/-- Four bad boundaries in a row: the lock is lost and a detected fault of class 0x11 reported (R28). -/
theorem exec_syncFault_of_bad (hphase : 3 ≤ s.pin.phase) (hbad : 4 ≤ s.peer.badRun) (hslave : s.b oBeatCfg 16 = false) :
    exec .syncFault s = .next (s.kept (s.unlocked.fault (.unitOnly 0x11 true 0 s.me))) := by
  have hStep : s.syncFault = s.unlocked.fault (.unitOnly 0x11 true 0 s.me) := by
    rw [State.syncFault, hslave, if_pos (by simpa using hbad)]
    rfl
  rw [← hStep]
  exact State.act_beats hphase

/-- Four good boundaries in a row set LOCKED again (R28). -/
theorem exec_beatRelock_of_good (hwf : s.wf = true) (hphase : 3 ≤ s.pin.phase) (hgood : 4 ≤ s.peer.goodRun) (hslave : s.b oBeatCfg 16 = false) :
    exec .beatRelock s = .next (s.setB oBeatSync 31 true) := by
  have hStep : s.relock = s.setB oBeatSync 31 true := by rw [State.relock, hslave, if_pos (by simpa using hgood)]
  rw [← s.kept_of_wf (State.wf_setB oBeatSync 31 true hwf) rfl, ← hStep]
  exact State.act_beats hphase

end Sys2Proof.Machine

namespace Sys2Proof.Safety

open Sys2Proof.Machine

/-- Settles O18: the frame of a boundary gives the runs, the registers that a detected fault leaves give the loss of the lock. -/
theorem syncIsLostAndRegained : Obligations.SyncIsLostAndRegained := by
  unfold Obligations.SyncIsLostAndRegained
  refine ⟨fun s ns => exec_beatBoundary_runs, fun s hwf hphase hbad hslave => ?_, fun s => exec_beatRelock_of_good⟩
  have hUnlocked := s.unlocked_wf hwf
  have hReg := s.reg_kept (State.wf_fault (.unitOnly 0x11 true 0 s.me) hUnlocked)
  have hSync := (hReg oBeatSync).trans (State.reg_fault_other hUnlocked _ (by decide))
  rw [State.reg_unlocked hwf, if_pos rfl] at hSync
  refine ⟨_, exec_syncFault_of_bad hphase hbad hslave, ?_, ?_, ?_, fun hEmpty => ?_, fun o ho => ?_⟩
  · rw [State.b, hSync, bit_setBit_other _ _ _ _ (by decide) (by decide), bit_setBit_same _ _ _ (by decide)]
  · rw [State.b, hSync, bit_setBit_same _ _ _ (by decide)]
  · rw [State.b, hReg]
    exact State.fault_captured hUnlocked rfl
  · rw [State.f, hReg]
    have hStillEmpty : s.unlocked.b oFaultRecord 63 = false := by rw [State.b, State.reg_unlocked hwf, if_neg (by decide)]; exact hEmpty
    exact State.fault_class hUnlocked rfl hStillEmpty
  · obtain ⟨hSyncReg, hFaultRegs⟩ := not_or.mp (List.mem_cons.not.mp ho)
    rw [hReg, State.reg_fault_other hUnlocked _ hFaultRegs, State.reg_unlocked hwf, if_neg hSyncReg]

end Sys2Proof.Safety
end

section
/-! Readiness in flight (R67). In state 4 each operation on the staged set is a no-op but for WRITE_DROPPED, so a write of STAGE_CTL is its VIEW and SCOPE
alone; in state 3 a CANCEL goes back to CHECKED. -/
namespace Sys2Proof.Machine

open Sys2Proof.Safety

/-! The staging operations in state 4 -/

theorem State.stWrite_of_inFlight {s : State} (h : s.stageState = 4) (o : Nat) (w : Word) : s.stWrite o w = s.setB oStageResult 7 true :=
  if_pos h

theorem State.load_of_inFlight {s : State} (h : s.stageState = 4) : s.load = s := if_pos h

theorem State.checkStart_of_inFlight {s : State} (h : s.stageState = 4) : s.checkStart = s := by simp [State.checkStart, h]

theorem State.arm_of_inFlight {s : State} (h : s.stageState = 4) : s.arm = s := by simp [State.arm, h]

/-! A write of STAGE_CTL -/

/-- VIEW and SCOPE stand beside the staging state (R62, R63). -/
theorem State.stageState_setF_stageCtl {s : State} (h : s.wf = true) (hi lo v : Nat) : (s.setF oStageCtl hi lo v).stageState = s.stageState := by
  rw [State.stageState, State.f, State.reg_setF h, if_neg (by decide)]
  rfl

/-- In state 4 the four commands of STAGE_CTL, in whatever combination, do nothing (R64, R67). -/
theorem State.stageCtl_of_inFlight {s : State} (hwf : s.wf = true) (h : s.stageState = 4) (w : Word) :
    s.stageCtl w = s.setF oStageCtl 7 6 (fld w 7 6) := by
  have hState : (s.setF oStageCtl 7 6 (fld w 7 6)).stageState = 4 := (State.stageState_setF_stageCtl hwf ..).trans h
  simp [State.stageCtl, State.load_of_inFlight hState, hState, State.checkStart_of_inFlight hState, State.arm_of_inFlight hState]

/-- A CANCEL alone in state 3 withdraws the armed APPLY (R67). -/
theorem State.stageCtl_cancel_of_armed {s : State} (hwf : s.wf = true) (h : s.stageState = 3) {w : Word} (hCancel : bit w 2 = true)
    (hCheck : bit w 0 = false) (hApply : bit w 1 = false) (hLoad : bit w 3 = false) :
    s.stageCtl w = (s.setF oStageCtl 7 6 (fld w 7 6)).setF oStageResult 3 0 2 := by
  have hState : (s.setF oStageCtl 7 6 (fld w 7 6)).stageState = 3 := (State.stageState_setF_stageCtl hwf ..).trans h
  simp [State.stageCtl, hCancel, hCheck, hApply, hLoad, hState]

/-- A CANCEL through an open port leaves what its write of STAGE_CTL leaves (R391), given that this is sound with the waiting commands as they were. -/
theorem exec_cancel_of_stageCtl {s t : State} {w : Word} (hopen : s.portOpen = true) (h : s.stageCtl w = t) (hwf : t.wf = true)
    (hpending : t.pending = s.pending) : exec (.cancel w) s = .next t := by
  rw [← s.kept_of_wf hwf hpending, ← h]
  exact s.portNow_open (fun s => s.stageCtl w) hopen

/-! A write of a staged register -/

theorem inFam_of_out {o base step n : Nat} (h : o < base ∨ base + step * n ≤ o) : inFam o base step n = false := by
  have hout : ¬ (base ≤ o ∧ o < base + step * n) := by omega
  rw [inFam, ← Bool.decide_and, decide_eq_false hout, Bool.false_and]

/-- No register of the queues' page is staged, and none from the service group up (R394, R458). -/
theorem isStaged_of_queue_or_service {o : Nat} (h : o / 0x1000 = 4 ∨ 0xD000 ≤ o) : isStaged o = false := by
  have hne : ∀ k, k / 0x1000 ≠ 4 → k < 0xD000 → o ≠ k := by omega
  have hfam : ∀ base step n, 0x5000 ≤ base → base + step * n ≤ 0xD000 → inFam o base step n = false :=
    fun _ _ _ _ _ => inFam_of_out (by omega)
  simp [isStaged, stMask, hne, hfam]

/-- A staged register over HCP: its write is an ST write (R458). -/
theorem State.regWrite_hcp_of_isStaged {o : Nat} (s : State) (w : Word) (ho : o < 2 ^ 20) (ha : o % 8 = 0) (hst : isStaged o = true) :
    s.regWrite .hcp o w = s.stWrite o w := by
  have hne : ∀ k, isStaged k = false → o ≠ k := fun k hk hok => Bool.false_ne_true ((hok ▸ hk).symm.trans hst)
  have hpage : ¬ (o / 0x1000 = 4 ∨ 0xD000 ≤ o) := fun h => hne o (isStaged_of_queue_or_service h) rfl
  have hport : ¬ 1048576 ≤ o := by omega
  have hService : ¬ 0xD000 ≤ o := by omega
  have hQCfg : inFam o 0x4000 32 4 = false := inFam_of_out (by omega)
  have hDoorbell : inFam o 0x4008 32 4 = false := inFam_of_out (by omega)
  simp [State.regWrite, hport, ha, hService, hQCfg, hDoorbell, hst, hne oCtl (by decide), hne oStageCtl (by decide), hne oFabSwap (by decide),
    hne oMxSwap (by decide)]

end Sys2Proof.Machine

namespace Sys2Proof.Safety

open Sys2Proof.Machine

/-- Settles O8: an ST write and a write of STAGE_CTL, by what each does in states 4 and 3. -/
theorem readinessInFlightIsNotWithdrawn : Obligations.ReadinessInFlightIsNotWithdrawn := by
  unfold Obligations.ReadinessInFlightIsNotWithdrawn
  refine ⟨fun s o w ⟨hwf, hopen⟩ ho ha hst hstate => ?_, fun s w ⟨hwf, hopen⟩ hstate _ => ?_,
    fun s w ⟨hwf, hopen⟩ hstate hCancel hCheck hApply hLoad => ?_⟩
  · have hWrite : s.regWrite .hcp o w = s.setB oStageResult 7 true :=
      (s.regWrite_hcp_of_isStaged w ho ha hst).trans (State.stWrite_of_inFlight hstate o w)
    rw [exec_registerWrite_of_portOpen hopen, hWrite, s.kept_of_wf (State.acked_wf (State.wf_setB _ _ _ hwf) ..) rfl]
    rfl
  · exact exec_cancel_of_stageCtl hopen (State.stageCtl_of_inFlight hwf hstate w) (State.wf_setF _ _ _ _ hwf) rfl
  · exact exec_cancel_of_stageCtl hopen (State.stageCtl_cancel_of_armed hwf hstate hCancel hCheck hApply hLoad)
      (State.wf_setF _ _ _ _ (State.wf_setF _ _ _ _ hwf)) rfl

end Sys2Proof.Safety
end

section
/-! The ports of a halted block (R462). In one part, what a write of fields and an ST write leave; in the next, what the halt makes the sequencer's
commands of the ports ignore; in the last, the service group, which no halt reaches. -/
namespace Sys2Proof.Machine

open Sys2Proof.Safety

/-! What a port command leaves -/

theorem State.stg_kept (s : State) {t : State} (h : fwf regDflt t.staged = true) (o : Nat) : (s.kept t).stg o = t.stg o :=
  congrArg (fget regDflt · o) (fcanon_of_wf h)

/-- A port command through an open port leaves what its effect leaves (R391), given that this is sound with the waiting commands as they were. -/
theorem State.portNow_of_eq {s t : State} {g : State → State} (hopen : s.portOpen = true) (h : g s = t) (hwf : t.wf = true)
    (hpending : t.pending = s.pending) : s.portNow g = .next t := by
  rw [s.portNow_open g hopen, h, s.kept_of_wf hwf hpending]

/-! A write of fields (R13, R457) -/

/-- A register word after a write of its RW and W1C fields. -/
def writtenFields (o : Nat) (w old : Word) : Word := ((w &&& rwMask o) ||| (old &&& ~~~(rwMask o))) &&& ~~~(w &&& w1cMask o)

theorem bit_writtenFields (o : Nat) (w old : Word) {i : Nat} (hi : i < 64) : bit (writtenFields o w old) i =
    if bit (w1cMask o) i && bit w i then false else if bit (rwMask o) i then bit w i else bit old i := by
  have hmasks : bit (writtenFields o w old) i =
      ((bit w i && bit (rwMask o) i || bit old i && !bit (rwMask o) i) && !(bit w i && bit (w1cMask o) i)) := by
    simp [writtenFields, bit, hi]
  rw [hmasks]
  generalize bit (w1cMask o) i = clears, bit (rwMask o) i = writes, bit w i = new, bit old i = kept
  revert clears writes new kept
  decide

/-- A write of fields writes a word that changes, and nothing else. -/
theorem State.fieldWrite_eq (s : State) (o : Nat) (w : Word) :
    s.fieldWrite o w = if writtenFields o w (s.reg o) = s.reg o then s else s.setReg o (writtenFields o w (s.reg o)) := rfl

theorem State.reg_fieldWrite {s : State} (h : s.wf = true) (o p : Nat) (w : Word) :
    (s.fieldWrite o w).reg p = if p = o then writtenFields o w (s.reg o) else s.reg p := by
  rw [State.fieldWrite_eq]
  split
  case isTrue hsame => split <;> simp_all
  case isFalse => exact State.reg_setReg h ..

theorem State.wf_fieldWrite {s : State} (h : s.wf = true) (o : Nat) (w : Word) : (s.fieldWrite o w).wf = true := by
  rw [State.fieldWrite_eq]
  split
  · exact h
  · exact State.wf_setReg _ _ h

theorem State.fieldWrite_frame (s : State) (o : Nat) (w : Word) : s.fieldWrite o w = { s with live := (s.fieldWrite o w).live } := by
  rw [State.fieldWrite_eq]
  split <;> rfl

/-- A write of a plain register over HCP writes its fields and is acknowledged without an error (R391). -/
theorem exec_registerWrite_of_plainRegister {s : State} (hs : Open s) {o : Nat} (w : Word) (ho : o < 2 ^ 20) (ha : o % 8 = 0)
    (hp : plainRegister o = true) : exec (.registerWrite .hcp o w) s = .next ((s.fieldWrite o w).acked .hcp false) := by
  obtain ⟨hwf, hopen⟩ := hs
  have hpending : (s.fieldWrite o w).pending = s.pending := (congrArg State.pending (s.fieldWrite_frame o w) :)
  rw [exec_registerWrite_of_portOpen hopen, s.regWrite_hcp_of_plainRegister w ho ha hp,
    s.kept_of_wf (State.acked_wf (State.wf_fieldWrite hwf o w) ..) hpending]
  rfl

/-! An ST write (R458) -/

@[simp] theorem State.stChanged_staged (s : State) : s.stChanged.staged = s.staged := by
  unfold State.stChanged
  extract_lets st
  split
  · rfl
  · split <;> rfl

theorem State.stWrite_staged {s : State} (h : s.stageState ≠ 4) (o : Nat) (w : Word) :
    (s.stWrite o w).staged = (s.setStg o (mergeSt o w (s.stg o))).staged := by
  rw [State.stWrite, if_neg h, State.stChanged_staged]

/-- Outside state 4 a write of a staged register over HCP merges its ST fields into the staged copy, and leaves the others. -/
theorem exec_registerWrite_of_isStaged {s : State} (hs : Open s) (hstate : s.stageState ≠ 4) {o : Nat} (w : Word) (ho : o < 2 ^ 20)
    (ha : o % 8 = 0) (hst : isStaged o = true) :
    Leads (.registerWrite .hcp o w) s (fun t => ∀ p, t.stg p = if p = o then mergeSt o w (s.stg o) else s.stg p) := by
  obtain ⟨hwf, hopen⟩ := hs
  have hstaged : ((s.regWrite .hcp o w).acked .hcp (writeErr .hcp o)).staged = (s.setStg o (mergeSt o w (s.stg o))).staged := by
    rw [s.regWrite_hcp_of_isStaged w ho ha hst]
    exact State.stWrite_staged hstate o w
  have hcanon := State.wf_staged (State.wf_setStg o (mergeSt o w (s.stg o)) hwf)
  refine ⟨_, exec_registerWrite_of_portOpen hopen .hcp o w, fun p => ?_⟩
  rw [s.stg_kept (hstaged ▸ hcanon), State.stg, hstaged]
  exact State.stg_setStg hwf o p _

/-! What a halted block ignores -/

theorem State.alive_of_halted {s : State} (h : s.pin.halted = true) : s.alive = false := by simp [State.alive, h]

/-- Without CANCEL, a write of STAGE_CTL to a halted block writes VIEW and SCOPE alone (R62). -/
theorem State.stageCtl_of_halted {s : State} (h : s.pin.halted = true) {w : Word} (hCancel : bit w 2 = false) :
    s.stageCtl w = s.setF oStageCtl 7 6 (fld w 7 6) := by
  have halive : (s.setF oStageCtl 7 6 (fld w 7 6)).alive = false := State.alive_of_halted h
  simp [State.stageCtl, halive, hCancel]

theorem State.fabSwap_of_halted {s : State} (h : s.pin.halted = true) (w : Word) : s.fabSwap w = s := by simp [State.fabSwap, h]

theorem State.mxSwap_of_halted {s : State} (h : s.pin.halted = true) (w : Word) : s.mxSwap w = s := by simp [State.mxSwap, h]

/-- A doorbell at a halted block sets DB_ERR (R425). -/
theorem State.ring_of_halted {s : State} (h : s.pin.halted = true) (q : Queue) (v : Nat) :
    s.ring_ q v = s.setB (oQStat (qIdx q)) 2 true := by simp [State.ring_, h]

/-! The service group (R394, R467) -/

/-- Once phase 2 is over, both ports reach the service group (R446). -/
theorem State.serviceShut_after_image {s : State} (h : s.pin.phase ≠ 2) (port : RegPort) : s.serviceShut port = false := by
  simp [State.serviceShut, h]

/-- Once phase 2 is over, no push is waited for (R446). -/
theorem State.pushWait_after_image {s : State} (h : s.pin.phase ≠ 2) (port : RegPort) : s.pushWait port = false := by
  simp [State.pushWait, h]

/-- A word that the image buffer takes goes to its end. -/
theorem State.imgWrite_image {s : State} (hbusy : s.b oSvImgStat 0 = false) (hroom : s.pin.image.length < 2 ^ 17) (w : Word) :
    (s.imgWrite w).pin.image = s.pin.image ++ [w] := by
  have hfull : ¬ 131072 ≤ s.pin.image.length := by omega
  simp [State.imgWrite, hbusy, hfull]

section SvCtl

variable {s : State} {port : RegPort} {w : Word}

/-- IMG_CLEAR alone: the buffer is empty. -/
theorem State.svCtl_clear_image (hshut : s.serviceShut port = false) (hClear : bit w 2 = true) (hCommit : bit w 1 = false)
    (hReset : bit w 0 = false) : (s.svCtl port w).pin.image = [] := by
  simp [State.svCtl, hshut, hClear, hCommit, hReset]

/-- IMG_COMMIT alone, with its key. -/
theorem State.svCtl_commit (hshut : s.serviceShut port = false) (hClear : bit w 2 = false) (hCommit : bit w 1 = true)
    (hReset : bit w 0 = false) (hkey : fld w 63 56 = 0xA5) : s.svCtl port w = s.imgCommit port := by
  simp [State.svCtl, hshut, hClear, hCommit, hReset, hkey]

/-- RESET alone, with its key, while no image is being programmed. -/
theorem State.svCtl_reset (hshut : s.serviceShut port = false) (hbusy : s.b oSvImgStat 0 = false) (hClear : bit w 2 = false)
    (hCommit : bit w 1 = false) (hReset : bit w 0 = true) (hkey : fld w 63 56 = 0xA5) : s.svCtl port w = s.toReset 1 := by
  simp [State.svCtl, State.svReset, hshut, hbusy, hClear, hCommit, hReset, hkey]

end SvCtl

/-- Steps that each leave the pins leave them together. -/
theorem State.foldl_pin {α : Type} {g : State → α → State} (h : ∀ s a, (g s a).pin = s.pin) (l : List α) (s : State) :
    (l.foldl g s).pin = s.pin := by
  induction l generalizing s with
  | nil => rfl
  | cons a t ih => exact (ih (g s a)).trans (h s a)

theorem State.pushOp_pin (s : State) (o : BridgeOp) : (s.pushOp o).pin = s.pin := by
  unfold State.pushOp
  split <;> rfl

/-- The programming of region 0 leaves the pins, the buffer and its BUSY as they are (R454). -/
theorem State.imageProgram_pin (s : State) (bs : List Byte) : (s.imageProgram bs).pin = s.pin := by
  unfold State.imageProgram
  extract_lets luns s'
  have herase : s'.pin = s.pin := State.foldl_pin (fun s l => s.pushOp_pin _) luns s
  refine (State.foldl_pin (fun s l => ?_) luns s').trans herase
  refine State.foldl_pin (fun s k => ?_) _ s
  exact State.pushOp_pin ..

/-- After phase 2, an image that passes its checks is taken and its programming begins (R454). -/
theorem State.imgCommit_busy {s : State} {x : Image} (hphase : 3 ≤ s.pin.phase) (hbusy : s.b oSvImgStat 0 = false)
    (himage : checkImage s.imageBytes s.me = .inr x) (port : RegPort) : (s.imgCommit port).pin.imgBusy = true := by
  have hwait : s.pushWait port = false := State.pushWait_after_image (by omega) port
  have hbooted : ¬ s.pin.phase < 3 := by omega
  simp [State.imgCommit, hbusy, hwait, hbooted, himage, State.imageProgram_pin]

/-- The mirror latched for a port holds its sources' values (R467, R468). -/
theorem State.latchOf_latch32 (s : State) (port : RegPort) : (s.latch32 port).latchOf port = mirrorSources.map s.regValue := by
  cases port <;> rfl

end Sys2Proof.Machine

namespace Sys2Proof.Safety

open Sys2Proof.Machine

/-- Settles O43: a write of fields and an ST write as on any open port, the commands that the halt makes ignored, and the service group, which
does not ask whether the block is halted. -/
theorem aHaltedBlockServesItsPorts : Obligations.AHaltedBlockServesItsPorts := by
  unfold Obligations.AHaltedBlockServesItsPorts
  intro s hs hphase hhalted
  have ⟨hwf, hopen⟩ := hs
  have hshut : ∀ port, s.serviceShut port = false := State.serviceShut_after_image (by omega)
  refine ⟨fun o w ho ha hp => ?fields, fun o w ho ha hst hstate => exec_registerWrite_of_isStaged hs hstate w ho ha hst,
    fun w c hCancel hc => ?staging, fun w => ⟨?fabric, ?matrix⟩, fun q w => ?doorbell,
    fun port w hbusy => ⟨fun hroom => ?write, fun hClear hCommit hReset => ?clear, fun hClear hCommit hReset hkey x himage => ?commit,
      fun hClear hCommit hReset hkey => ?reset⟩, fun port => ?mirror⟩
  case fields =>
    refine ⟨_, exec_registerWrite_of_plainRegister hs w ho ha hp, congrArg (State.acked · .hcp false) (s.fieldWrite_frame o w),
      fun p hother => ?_, fun i hi => ?_⟩
    · exact (State.reg_fieldWrite hwf o p w).trans (if_neg (List.mem_singleton.not.mp hother))
    · rw [← bit_writtenFields o w (s.reg o) hi]
      exact congrArg (bit · i) ((State.reg_fieldWrite hwf o o w).trans (if_pos rfl))
  case staging =>
    have hport := State.portNow_of_eq (g := fun s => s.stageCtl w) hopen (State.stageCtl_of_halted hhalted hCancel)
      (State.wf_setF _ _ _ _ hwf) rfl
    obtain rfl | rfl | rfl := hc
    all_goals exact hport
  case fabric => exact State.portNow_of_eq (g := fun s => s.fabSwap w) hopen (State.fabSwap_of_halted hhalted w) hwf rfl
  case matrix => exact State.portNow_of_eq (g := fun s => s.mxSwap w) hopen (State.mxSwap_of_halted hhalted w) hwf rfl
  case doorbell =>
    exact State.portNow_of_eq (g := fun s => s.ring_ q (fld w 31 0)) hopen (State.ring_of_halted hhalted q _) (State.wf_setB _ _ _ hwf) rfl
  case write =>
    refine ⟨_, s.portNow_open (fun s => if s.serviceShut port then s else s.imgWrite w) hopen, ?_⟩
    change (if s.serviceShut port then s else s.imgWrite w).pin.image = _
    rw [hshut port]
    exact State.imgWrite_image hbusy hroom w
  case clear => exact ⟨_, s.portNow_open (fun s => s.svCtl port w) hopen, State.svCtl_clear_image (hshut port) hClear hCommit hReset⟩
  case commit =>
    refine ⟨_, s.portNow_open (fun s => s.svCtl port w) hopen, ?_⟩
    change (s.svCtl port w).pin.imgBusy = true
    rw [State.svCtl_commit (hshut port) hClear hCommit hReset hkey]
    exact State.imgCommit_busy (by omega) hbusy himage port
  case reset =>
    refine ⟨_, s.portNow_open (fun s => s.svCtl port w) hopen, ?_⟩
    change (s.svCtl port w).pin.phase = 0 ∧ (s.svCtl port w).pin.halted = false
    rw [State.svCtl_reset (hshut port) hbusy hClear hCommit hReset hkey]
    exact ⟨rfl, rfl⟩
  case mirror => exact ⟨_, s.portNow_open (fun s => s.latch32 port) hopen, s.latchOf_latch32 port⟩

end Sys2Proof.Safety
end
